-- ==== Sys2Proof/Word.lean ====
section
/-! DEFINITION. The one word width of the SQN5 noise core and the two readings of a word
(00_scope.md R7, R12, R13). The operators of R14 (`+32`, `*32`, `>>`, `^`) are `BitVec`'s own
`+`, `*`, `>>>` and `^^^` at width 32: they wrap modulo 2^32, the shift is logical, and none has a
flag, a carry or a trap. -/

namespace Sys2Proof

/-- A 32-bit field: a coordinate, the seed, a raw noise value or a binary32 pattern (R7). -/
abbrev Word := BitVec 32

/-- The unsigned reading `u(b)` of R13. -/
def Word.unsigned (b : Word) : Nat := b.toNat

/-- The signed, two's-complement reading `s(b)` of R13; no bit changes. -/
def Word.signed (b : Word) : Int := b.toInt

end Sys2Proof
end

