-- ==== Sys2Proof/Syntax.lean ====
section
/-! DEFINITION. The syntax of the SQN5 noise core: the thirteen operations with the fields each one
reads (30_encoding.md R58, R59), the six-field request (R55), the two-field response (R56), and the
abstract form of an assembler line (R66 to R68). -/

namespace Sys2Proof

/-- The thirteen operations (00_scope.md R3), one constructor per row of the operation table. Each
holds exactly the fields the operation reads (30_encoding.md R59), in the order `x y z t seed`; a
field that is not read is not part of the operation at all (R60). Every operand is one whole 32-bit
field, so every term is well formed (R11, R61). -/
inductive Instr where
  | noiseU1D (x seed : Word)
  | noiseU2D (x y seed : Word)
  | noiseU3D (x y z seed : Word)
  | noiseU4D (x y z t seed : Word)
  | noiseZ1D (x seed : Word)
  | noiseZ2D (x y seed : Word)
  | noiseZ3D (x y z seed : Word)
  | noiseZ4D (x y z t seed : Word)
  | noiseN1D (x seed : Word)
  | noiseN2D (x y seed : Word)
  | noiseN3D (x y z seed : Word)
  | noiseN4D (x y z t seed : Word)
  | scramble (position seed : Word)
  deriving DecidableEq, Repr

/-- A request: the six fields sampled together on one clock edge (10_state.md R28, 20_memory.md R43). -/
structure Request where
  op : BitVec 4
  seed : Word
  t : Word
  z : Word
  y : Word
  x : Word
  deriving DecidableEq, Repr

/-- A response: the two fields that are valid while `rsp_valid` is 1 (10_state.md R29). -/
structure Response where
  err : Bool
  result : Word
  deriving DecidableEq, Repr

/-- A numeral of the assembler text (30_encoding.md R67). -/
inductive Numeral where
  | dec (value : Int)
  | hex (value : Nat)
  | int32Min
  | int32Max
  deriving DecidableEq, Repr

/-- A line of assembler text after parsing (30_encoding.md R66): a request by name with its
coordinates and seed, or a reserved code with no operands. -/
inductive AsmLine where
  | request (name : String) (coords : List Numeral) (seed : Numeral)
  | reserved (name : String)
  deriving DecidableEq, Repr

end Sys2Proof
end

