-- ==== Sys2Proof/WellFormed.lean ====
section
/-! DEFINITION. The checks the spec gives. An `Instr` needs none: its operands are whole 32-bit
fields, and every bit pattern of every operand is legal (00_scope.md R11, 30_encoding.md R62). What
can be ill formed is a request whose operation code is not assigned (R62) and an assembler line
with a wrong name, a wrong number of coordinates, or a numeral outside its range (R66, R67). -/

namespace Sys2Proof

/-- The request's operation code is one of the thirteen assigned ones (30_encoding.md R58, R62). -/
def Request.assigned (q : Request) : Bool := q.op.toNat < 13

/-- The thirteen mnemonics of 30_encoding.md R58 with their operation codes. -/
def mnemonicCodes : List (String × BitVec 4) :=
  [("NOISE_U1D", 0), ("NOISE_U2D", 1), ("NOISE_U3D", 2), ("NOISE_U4D", 3),
   ("NOISE_Z1D", 4), ("NOISE_Z2D", 5), ("NOISE_Z3D", 6), ("NOISE_Z4D", 7),
   ("NOISE_N1D", 8), ("NOISE_N2D", 9), ("NOISE_N3D", 10), ("NOISE_N4D", 11),
   ("SCRAMBLE", 12)]

/-- The document's function names, accepted one for one as aliases (30_encoding.md R68). -/
def aliasCodes : List (String × BitVec 4) :=
  [("noiseUint1D", 0), ("noiseUint2D", 1), ("noiseUint3D", 2), ("noiseUint4D", 3),
   ("noiseZeroToOne1D", 4), ("noiseZeroToOne2D", 5), ("noiseZeroToOne3D", 6),
   ("noiseZeroToOne4D", 7),
   ("noiseNegOneToOne1D", 8), ("noiseNegOneToOne2D", 9), ("noiseNegOneToOne3D", 10),
   ("noiseNegOneToOne4D", 11),
   ("scramble", 12)]

/-- How a reserved code is written (30_encoding.md R66). -/
def reservedCodes : List (String × BitVec 4) :=
  [("OP_0xD", 13), ("OP_0xE", 14), ("OP_0xF", 15)]

/-- The operation code an assigned name stands for (30_encoding.md R58, R68). -/
def codeOfName (name : String) : Option (BitVec 4) :=
  (mnemonicCodes ++ aliasCodes).lookup name

/-- How many coordinates an assigned code takes: `op[1:0] + 1`, and one for the special group
(30_encoding.md R57, R59). -/
def arityOfCode (op : BitVec 4) : Nat :=
  if op.extractLsb 3 2 = 0b11#2 then 1 else (op.extractLsb 1 0).toNat + 1

/-- A coordinate numeral is in its range (30_encoding.md R67). -/
def Numeral.coordInRange : Numeral → Bool
  | .dec v => decide (-2147483648 ≤ v ∧ v ≤ 2147483647)
  | .hex v => decide (v ≤ 0xFFFFFFFF)
  | .int32Min => true
  | .int32Max => true

/-- A seed numeral is in its range: an unsigned decimal or a hexadecimal literal; the two names are
for coordinates (30_encoding.md R67; DESIGN CHOICE, log 14). -/
def Numeral.seedInRange : Numeral → Bool
  | .dec v => decide (0 ≤ v ∧ v ≤ 4294967295)
  | .hex v => decide (v ≤ 0xFFFFFFFF)
  | .int32Min => false
  | .int32Max => false

/-- An assembler line that the assembler takes (30_encoding.md R66, R67). -/
def AsmLine.wellFormed : AsmLine → Bool
  | .request name coords seed =>
    match codeOfName name with
    | some op =>
      coords.length == arityOfCode op && coords.all Numeral.coordInRange && seed.seedInRange
    | none => false
  | .reserved name => (reservedCodes.lookup name).isSome

end Sys2Proof
end

