-- ==== Sys2Proof/Decode.lean ====
section
/-! DEFINITION. Packing of requests and responses (30_encoding.md R55, R56), the decoder, total on
every request and rejecting the reserved codes by name (R58, R62, R69), and the encoder, which
writes the canonical form with every unread field zero (R60, R66). There is no byte order and no
length to find (R63, 20_memory.md R41): a request is one 164-bit word. -/

namespace Sys2Proof

/-- `REQ[163:0] = {op, seed, t, z, y, x}` (30_encoding.md R55). -/
def Request.pack (q : Request) : BitVec 164 :=
  q.op ++ q.seed ++ q.t ++ q.z ++ q.y ++ q.x

/-- The six fields of a packed request, at the bits of the table of 30_encoding.md R55. -/
def Request.unpack (w : BitVec 164) : Request where
  op := w.extractLsb 163 160
  seed := w.extractLsb 159 128
  t := w.extractLsb 127 96
  z := w.extractLsb 95 64
  y := w.extractLsb 63 32
  x := w.extractLsb 31 0

/-- `RSP[32:0] = {err, result}` (30_encoding.md R56). -/
def Response.pack (p : Response) : BitVec 33 := BitVec.ofBool p.err ++ p.result

/-- The two fields of a packed response (30_encoding.md R56). -/
def Response.unpack (w : BitVec 33) : Response where
  err := w.getLsbD 32
  result := w.extractLsb 31 0

/-- Why the decoder rejects a request. -/
inductive DecodeError where
  /-- The operation code is one of the three unassigned ones (30_encoding.md R62). Raised by `decode`;
  the step answers such a request with `err` = 1 (60_exceptions.md R161), it does not stop: safe. -/
  | reservedCode (op : BitVec 4)
  deriving DecidableEq, Repr

/-- The operation a request selects, by `op` alone, with the fields the operation reads
(30_encoding.md R58, R59). -/
def decode (q : Request) : Except DecodeError Instr :=
  match q.op.toNat with
  | 0x0 => .ok (.noiseU1D q.x q.seed)
  | 0x1 => .ok (.noiseU2D q.x q.y q.seed)
  | 0x2 => .ok (.noiseU3D q.x q.y q.z q.seed)
  | 0x3 => .ok (.noiseU4D q.x q.y q.z q.t q.seed)
  | 0x4 => .ok (.noiseZ1D q.x q.seed)
  | 0x5 => .ok (.noiseZ2D q.x q.y q.seed)
  | 0x6 => .ok (.noiseZ3D q.x q.y q.z q.seed)
  | 0x7 => .ok (.noiseZ4D q.x q.y q.z q.t q.seed)
  | 0x8 => .ok (.noiseN1D q.x q.seed)
  | 0x9 => .ok (.noiseN2D q.x q.y q.seed)
  | 0xA => .ok (.noiseN3D q.x q.y q.z q.seed)
  | 0xB => .ok (.noiseN4D q.x q.y q.z q.t q.seed)
  | 0xC => .ok (.scramble q.x q.seed)
  | _ => .error (.reservedCode q.op)

/-- Decoding of a packed request. -/
def decodeWord (w : BitVec 164) : Except DecodeError Instr := decode (Request.unpack w)

/-- The request that carries an instruction, every unread field zero: the canonical encoding of
30_encoding.md R60 and R66. -/
def encodeRequest : Instr → Request
  | .noiseU1D x seed => { op := 0x0, seed, t := 0, z := 0, y := 0, x }
  | .noiseU2D x y seed => { op := 0x1, seed, t := 0, z := 0, y, x }
  | .noiseU3D x y z seed => { op := 0x2, seed, t := 0, z, y, x }
  | .noiseU4D x y z t seed => { op := 0x3, seed, t, z, y, x }
  | .noiseZ1D x seed => { op := 0x4, seed, t := 0, z := 0, y := 0, x }
  | .noiseZ2D x y seed => { op := 0x5, seed, t := 0, z := 0, y, x }
  | .noiseZ3D x y z seed => { op := 0x6, seed, t := 0, z, y, x }
  | .noiseZ4D x y z t seed => { op := 0x7, seed, t, z, y, x }
  | .noiseN1D x seed => { op := 0x8, seed, t := 0, z := 0, y := 0, x }
  | .noiseN2D x y seed => { op := 0x9, seed, t := 0, z := 0, y, x }
  | .noiseN3D x y z seed => { op := 0xA, seed, t := 0, z, y, x }
  | .noiseN4D x y z t seed => { op := 0xB, seed, t, z, y, x }
  | .scramble position seed => { op := 0xC, seed, t := 0, z := 0, y := 0, x := position }

/-- The packed word of an instruction (30_encoding.md R55, R66). -/
def encode (i : Instr) : BitVec 164 := (encodeRequest i).pack

/-- The low 164 bits of the low `nbits` bits of `w`, as a packed request: the form in which the host
hands over a row of the operation table (log 13). -/
def tableRequestWord (nbits w : Nat) : BitVec 164 := BitVec.ofNat 164 (w % 2 ^ nbits)

/-- The instruction the decoder reads from a table word; `none` where it rejects the word. -/
def decodeTableWord (nbits w : Nat) : Option Instr :=
  match decodeWord (tableRequestWord nbits w) with
  | .ok i => some i
  | .error _ => none

end Sys2Proof
end

