-- ==== Sys2Proof/Config.lean ====
section
/-! DEFINITION. What an implementation fixes, and the free values. None of these constants has a
body: nothing in Lean can evaluate one, so a theorem about the model holds whatever they are. The
hash constants, multipliers, widths and rounding are NOT here: they are the same in every instance
(00_scope.md R8) and stand in the machine's own files. -/

namespace Sys2Proof.Config

/-- `LATENCY`, the one open parameter of the spec (00_scope.md R9, 93_implementation_defined.md U8). -/
opaque latency : Nat

/-- Whether `rst` is connected. Read only when `latency` is 0, where an implementation may leave it
unconnected (10_state.md R30; log 4). -/
opaque resetWired : Bool

/-- The unspecified `result` of a response with `err` = 1, one draw per occurrence
(60_exceptions.md R161, 93_implementation_defined.md U1; log 7). -/
opaque unspecifiedResult : Nat → Word

/-- The unspecified `err` port in a cycle with `rsp_valid` = 0 (10_state.md R29, U2; log 8). -/
opaque idleErr : Nat → Bool

/-- The unspecified `result` port in a cycle with `rsp_valid` = 0 (10_state.md R29, U2; log 8). -/
opaque idleResult : Nat → Word

/-- Whether pipeline slot `k` of a block that was never reset powers up holding a valid bit
(70_reset_and_hazards.md R180, 93_implementation_defined.md U10; log 10). -/
opaque powerUpValid : Nat → Bool

/-- The `err` such a slot presents (log 10). -/
opaque powerUpErr : Nat → Bool

/-- The `result` such a slot presents (log 10). -/
opaque powerUpResult : Nat → Word

end Sys2Proof.Config

namespace Sys2Proof

/-- The timing of one implementation: the argument a timed model takes (00_scope.md R9). -/
structure Timing where
  latency : Nat
  resetWired : Bool
  deriving DecidableEq, Repr

/-- The timing of the implementation that `step` runs. -/
def Config.timing : Timing := ⟨Config.latency, Config.resetWired⟩

end Sys2Proof
end

