-- ==== Sys2Proof/Machine/State.lean ====
section
/-! DEFINITION. The state of the machine as plain data. The block has no architectural state
(10_state.md R20): what varies during a run is the requests presented, the requests in flight and
the responses delivered (R20, R27, 00_scope.md R18), and that is what State holds. There is no
register, program counter, flag, mode or memory to hold (R21 to R26). -/

namespace Sys2Proof.Machine

/-- What the requester drives on the input ports during one clock cycle (10_state.md R28, R30). -/
structure PortInput where
  rst : Bool
  reqValid : Bool
  request : Request
  deriving DecidableEq, Repr

/-- A cycle in which nothing is presented. The request fields are not sampled while `req_valid` is 0
(10_state.md R28), so their zeros are never read. -/
def PortInput.idle : PortInput := ⟨false, false, ⟨0, 0, 0, 0, 0, 0⟩⟩

/-- A request in flight: the response computed from that one request (10_state.md R27) and the number
of clock cycles since the cycle it was presented in. -/
structure InFlight where
  rsp : Response
  age : Nat
  deriving DecidableEq, Repr

/-- The state before a clock cycle.

`inputs`: what the requester will drive in the coming cycles, the next cycle first; after the last
entry nothing is presented (R28; log 1).
`inFlight`: the pipeline, oldest request first (R27, 70_reset_and_hazards.md R186).
`rsp`: the response channel in the cycle just finished; `none` says that `rsp_valid` was 0, and then
`err` and `result` carry no information (R29; logs 2 and 8).
`responses`: every response delivered so far, first one first (00_scope.md R18; log 16).
`draws`: the MODEL's own counter of free values (log 9). -/
structure State where
  inputs : List PortInput
  inFlight : List InFlight
  rsp : Option Response
  responses : List Response
  draws : Nat
  deriving DecidableEq, Repr

/-- The faults that stop the machine: none. "No error conditions exist" (60_exceptions.md R160), and
an `IllegalOp` response does not stop the block (R161, R174). -/
inductive Fault where
  deriving DecidableEq, Repr

/-- The refusals. -/
inductive Refusal where
  /-- An instruction without a meaning, refused by name in exec's arm. Safe: the machine stops. No arm
  of this model raises it. -/
  | notModelled (mnemonic : String)
  deriving DecidableEq, Repr

/-- The block right after reset: `rsp_valid` is 0 and nothing is in flight (10_state.md R33); nothing
is presented or delivered yet; the counter of free values is 0 (log 9). -/
def State.reset : State where
  inputs := []
  inFlight := []
  rsp := none
  responses := []
  draws := 0

end Sys2Proof.Machine
end

