-- ==== Sys2Proof/Machine/Flags.lean ====
section
/-! DEFINITION. There are no flags (10_state.md R23). The one status bit is `err` of a response,
computed from that response's own request and never stored: this file holds the two forms of a
response and the condition that decides between them. -/

namespace Sys2Proof.Machine

/-- `err` as a function of the operation code: 1 for `0xD`, `0xE`, `0xF` and 0 for every assigned code
(60_exceptions.md R160, R161). -/
def errOfCode (op : BitVec 4) : Bool :=
  op == 0xD#4 || op == 0xE#4 || op == 0xF#4

/-- A normal completion: `err` = 0 and a defined `result` (60_exceptions.md R160). -/
def normalResponse (result : Word) : Response := ⟨false, result⟩

/-- An `IllegalOp` completion: `err` = 1 and whatever `result` was drawn (60_exceptions.md R161). -/
def illegalResponse (drawn : Word) : Response := ⟨true, drawn⟩

end Sys2Proof.Machine
end

