-- ==== Sys2Proof/Machine/Operands.lean ====
section
/-! DEFINITION. Which fields of a request an operation reads (30_encoding.md R57, R59). Operands come
from the request alone (10_state.md R21): each is one whole 32-bit field used exactly as presented
(30_encoding.md R61), so there is no other operand form. -/

namespace Sys2Proof.Machine

/-- The map selector `op[3:2]` (30_encoding.md R57). -/
def mapSelector (op : BitVec 4) : BitVec 2 := op.extractLsb 3 2

/-- The dimension selector `op[1:0]` (30_encoding.md R57). -/
def dimSelector (op : BitVec 4) : BitVec 2 := op.extractLsb 1 0

/-- `y` is read: at least two coordinates (30_encoding.md R59). -/
def readsY (op : BitVec 4) : Bool := mapSelector op != 0b11#2 && decide (1 ≤ (dimSelector op).toNat)

/-- `z` is read: at least three coordinates (30_encoding.md R59). -/
def readsZ (op : BitVec 4) : Bool := mapSelector op != 0b11#2 && decide (2 ≤ (dimSelector op).toNat)

/-- `t` is read: four coordinates (30_encoding.md R59). -/
def readsT (op : BitVec 4) : Bool := mapSelector op != 0b11#2 && decide ((dimSelector op).toNat = 3)

/-- The request with every coordinate field that its operation does not read set to zero, as the
assembler does (30_encoding.md R60, R66). `x` and `seed` are read by every assigned operation (R59). -/
def canonicalRequest (q : Request) : Request :=
  { q with
    y := if readsY q.op then q.y else 0
    z := if readsZ q.op then q.z else 0
    t := if readsT q.op then q.t else 0 }

end Sys2Proof.Machine
end

