-- ==== Sys2Proof/Machine/Ops.lean ====
section
/-! DEFINITION. The named operations over State: taking a request into the pipeline, answering a
reserved code (the block's one abnormal completion), presenting the response that is due, discarding
requests at a reset edge, and the ports. There are no register or memory operations
(00_scope.md R16, 20_memory.md R40), no trap entry and no trap return (60_exceptions.md R165, R166). -/

namespace Sys2Proof.Machine

/-- What is driven on the input ports in the coming cycle (10_state.md R28). -/
def State.input (s : State) : PortInput := s.inputs.headD PortInput.idle

/-- `rst` has an effect: always with a pipeline; with `LATENCY` = 0 only where it is connected
(10_state.md R30; log 4). -/
def timingSeesReset (t : Timing) : Bool := t.resetWired || t.latency != 0

/-- The cycle's edge is a reset edge (70_reset_and_hazards.md R180). -/
def resetsOn (t : Timing) (p : PortInput) : Bool := p.rst && timingSeesReset t

/-- The cycle's edge accepts a request: `req_valid` is 1 and it is no reset edge; the block is always
ready (10_state.md R28, 70_reset_and_hazards.md R180). -/
def acceptsOn (t : Timing) (p : PortInput) : Bool := p.reqValid && !resetsOn t p

/-- An accepted request enters the pipeline as its response, presented zero cycles ago; the request
has no other effect (10_state.md R27, 20_memory.md R43; log 17). -/
def State.accept (s : State) (p : Response) : State :=
  { s with inFlight := s.inFlight ++ [⟨p, 0⟩] }

/-- The common effect of the thirteen operations: `rsp.err <- 0`, `rsp.result <- result`
(60_exceptions.md R160). -/
def State.complete (s : State) (result : Word) : State := s.accept (normalResponse result)

/-- `raise IllegalOp(op)`: `err` = 1, `result` a fresh draw, no operand read, nothing else
(60_exceptions.md R161, 00_scope.md R16; log 7). -/
def State.raiseIllegalOp (s : State) : State :=
  s.accept (illegalResponse (Config.unspecifiedResult s.draws))

/-- The response due in this cycle: the oldest request's, `LATENCY` cycles after it was presented
(70_reset_and_hazards.md R186; responses keep request order, 20_memory.md R46). -/
def dueResponse (latency : Nat) : List InFlight → Option Response
  | [] => none
  | e :: _ => if latency ≤ e.age then some e.rsp else none

/-- The pipeline without the response due in this cycle. -/
def afterDue (latency : Nat) : List InFlight → List InFlight
  | [] => []
  | e :: es => if latency ≤ e.age then es else e :: es

/-- One more cycle has passed for every request in flight. -/
def ageAll (es : List InFlight) : List InFlight := es.map fun e => { e with age := e.age + 1 }

/-- The response channel of one cycle: what is due is presented, once, and taken by the requester;
otherwise `rsp_valid` is 0 (10_state.md R29, 70_reset_and_hazards.md R185, R186). -/
def State.present (latency : Nat) (s : State) : State :=
  { s with
    rsp := dueResponse latency s.inFlight
    responses := s.responses ++ (dueResponse latency s.inFlight).toList
    inFlight := ageAll (afterDue latency s.inFlight) }

/-- Every request in flight is discarded, and gets no response ever (70_reset_and_hazards.md R180, R188). -/
def State.discard (s : State) : State := { s with inFlight := [] }

/-- The rest of the cycle after its request, if any, was taken: the response channel, the effect of a
reset edge, then the next cycle's inputs and a fresh draw for it (70_reset_and_hazards.md R180, R186). -/
def State.closeCycle (t : Timing) (s : State) : State :=
  let s1 := s.present t.latency
  let s2 := if resetsOn t s.input then s1.discard else s1
  { s2 with inputs := s.inputs.tail, draws := s.draws + 1 }

/-- The port `rsp_valid` in the cycle just finished (10_state.md R29). -/
def State.rspValidPort (s : State) : Bool := s.rsp.isSome

/-- The port `err` in the cycle just finished; unspecified while `rsp_valid` is 0 (10_state.md R29; log 8). -/
def State.errPort (s : State) : Bool :=
  match s.rsp with
  | some p => p.err
  | none => Config.idleErr s.draws

/-- The port `result` in the cycle just finished; unspecified while `rsp_valid` is 0 (10_state.md R29;
log 8). -/
def State.resultPort (s : State) : Word :=
  match s.rsp with
  | some p => p.result
  | none => Config.idleResult s.draws

/-- The next cycle presents this request word, with `req_valid` = 1 and `rst` = 0 (10_state.md R28). -/
def State.presentWord (s : State) (w : BitVec 164) : State :=
  { s with inputs := ⟨false, true, Request.unpack w⟩ :: s.inputs.tail }

/-- The pipeline of a block that was never reset: slots `k` down to 1, each valid or not and holding
anything (70_reset_and_hazards.md R180, 93_implementation_defined.md U10; log 10). -/
def powerUpPipe : Nat → List InFlight
  | 0 => []
  | k + 1 =>
    if Config.powerUpValid (k + 1) then
      ⟨⟨Config.powerUpErr (k + 1), Config.powerUpResult (k + 1)⟩, k + 1⟩ :: powerUpPipe k
    else powerUpPipe k

/-- A block that has been powered up and never reset (70_reset_and_hazards.md R180; log 10). -/
def State.powerUp (t : Timing) : State := { State.reset with inFlight := powerUpPipe t.latency }

end Sys2Proof.Machine
end

