-- ==== Sys2Proof/Machine/Scrambler.lean ====
section
/-! DEFINITION. The scrambler and the SCRAMBLE operation (40_scrambler.md). -/

namespace Sys2Proof.Machine

/-- Multiplier of step 2 (40_scrambler.md R81). -/
def scramblerK1 : Word := 0xd2a80a3f#32
/-- Addend of step 5 (40_scrambler.md R81). -/
def scramblerK2 : Word := 0xa884f197#32
/-- Multiplier of step 7 (40_scrambler.md R81). -/
def scramblerK3 : Word := 0x6C736F4B#32
/-- Addend of step 9 (40_scrambler.md R81). -/
def scramblerK4 : Word := 0xB79F3ABB#32
/-- Multiplier of step 11 (40_scrambler.md R81). -/
def scramblerK5 : Word := 0x1b56c4f5#32

/-- A shift-XOR step, `s ^ (s >> n)` with a logical shift (40_scrambler.md R84). -/
def shiftXor (n : Nat) (b : Word) : Word := b ^^^ (b >>> n)

/-- The twelve steps of 40_scrambler.md R82, every multiply and add modulo 2^32 (R83). -/
def scramble (position seed : Word) : Word :=
  let s1 := position
  let s2 := s1 * scramblerK1
  let s3 := s2 + seed
  let s4 := shiftXor 9 s3
  let s5 := s4 + scramblerK2
  let s6 := shiftXor 11 s5
  let s7 := s6 * scramblerK3
  let s8 := shiftXor 13 s7
  let s9 := s8 + scramblerK4
  let s10 := shiftXor 15 s9
  let s11 := s10 * scramblerK5
  shiftXor 17 s11

/-- SCRAMBLE (40_scrambler.md R89). -/
def execScramble (position seed : Word) (s : State) : Host.Outcome State Fault Refusal :=
  .next (s.complete (scramble position seed))

end Sys2Proof.Machine
end

