-- ==== Sys2Proof/Machine/CoordinateFolder.lean ====
section
/-! DEFINITION. The coordinate folder, its composition with the scrambler, and the four NOISE_U
operations (41_coordinate_folder.md). -/

namespace Sys2Proof.Machine

/-- Multiplier of `y` (41_coordinate_folder.md R101). -/
def foldP1 : Word := 198491317#32
/-- Multiplier of `z` (41_coordinate_folder.md R101). -/
def foldP2 : Word := 6542989#32
/-- Multiplier of `t` (41_coordinate_folder.md R101). -/
def foldP3 : Word := 357239#32

/-- One coordinate is taken as it is (41_coordinate_folder.md R102). -/
def fold1 (x : Word) : Word := x
/-- Two coordinates (41_coordinate_folder.md R102). -/
def fold2 (x y : Word) : Word := x + foldP1 * y
/-- Three coordinates (41_coordinate_folder.md R102). -/
def fold3 (x y z : Word) : Word := x + foldP1 * y + foldP2 * z
/-- Four coordinates (41_coordinate_folder.md R102). -/
def fold4 (x y z t : Word) : Word := x + foldP1 * y + foldP2 * z + foldP3 * t

/-- The raw noise of one coordinate (41_coordinate_folder.md R106). -/
def noiseUint1D (x seed : Word) : Word := scramble (fold1 x) seed
/-- The raw noise of two coordinates (41_coordinate_folder.md R106). -/
def noiseUint2D (x y seed : Word) : Word := scramble (fold2 x y) seed
/-- The raw noise of three coordinates (41_coordinate_folder.md R106). -/
def noiseUint3D (x y z seed : Word) : Word := scramble (fold3 x y z) seed
/-- The raw noise of four coordinates (41_coordinate_folder.md R106). -/
def noiseUint4D (x y z t seed : Word) : Word := scramble (fold4 x y z t) seed

/-- NOISE_U1D (41_coordinate_folder.md R107). -/
def execNoiseU1D (x seed : Word) (s : State) : Host.Outcome State Fault Refusal :=
  .next (s.complete (noiseUint1D x seed))

/-- NOISE_U2D (41_coordinate_folder.md R108). -/
def execNoiseU2D (x y seed : Word) (s : State) : Host.Outcome State Fault Refusal :=
  .next (s.complete (noiseUint2D x y seed))

/-- NOISE_U3D (41_coordinate_folder.md R109). -/
def execNoiseU3D (x y z seed : Word) (s : State) : Host.Outcome State Fault Refusal :=
  .next (s.complete (noiseUint3D x y z seed))

/-- NOISE_U4D (41_coordinate_folder.md R110). -/
def execNoiseU4D (x y z t seed : Word) (s : State) : Host.Outcome State Fault Refusal :=
  .next (s.complete (noiseUint4D x y z t seed))

end Sys2Proof.Machine
end

