-- ==== Sys2Proof/Machine/RangeScaler.lean ====
section
/-! DEFINITION. The range scaler and the eight NOISE_Z and NOISE_N operations (42_range_scaler.md).
The two mappings are written in the integer form of R131, in which a binary64 or binary32 value is
an integer times a fixed power of two; Machine/RealScaler.lean holds R122, R123, R126 and R127 over
the rationals, and that the two agree is stated as an obligation (log 12). -/

namespace Sys2Proof.Machine

/-- The number of significant bits of a positive integer, `len(W)` of 42_range_scaler.md R131. -/
def bitLen (W : Nat) : Nat := W.log2 + 1

/-- `rne_int`: round to `p` significant bits, to nearest, ties to even (42_range_scaler.md R131, R123). -/
def rneInt (W p : Nat) : Nat :=
  if W < 2 ^ p then W
  else
    let sh := bitLen W - p
    let q := W >>> sh
    let rem := W - (q <<< sh)
    let half := 2 ^ (sh - 1)
    let q' := if half < rem ∨ (rem = half ∧ q % 2 = 1) then q + 1 else q
    q' <<< sh

/-- The `p`-bit significand of a positive integer with at most `p` significant bits, its leading bit
at position `p - 1` (42_range_scaler.md R131). -/
def significand (p V : Nat) : Nat :=
  if p ≤ bitLen V then V >>> (bitLen V - p) else V <<< (p - bitLen V)

/-- `enc32_int`: the binary32 pattern of `(-1)^neg * V * 2^-k` (42_range_scaler.md R131, R122). -/
def enc32Int (neg : Bool) (V k : Nat) : Word :=
  if V = 0 then 0
  else
    BitVec.ofBool neg ++ BitVec.ofInt 8 ((bitLen V : Int) - 1 - k + 127)
      ++ BitVec.ofNat 23 (significand 24 V - 2 ^ 23)

/-- The binary64 pattern of `(-1)^neg * V * 2^-k` (42_range_scaler.md R121). Such a pattern is never
on a port; the model uses it only to show the intermediate product. -/
def enc64Int (neg : Bool) (V k : Nat) : BitVec 64 :=
  if V = 0 then 0
  else
    BitVec.ofBool neg ++ BitVec.ofInt 11 ((bitLen V : Int) - 1 - k + 1023)
      ++ BitVec.ofNat 52 (significand 53 V - 2 ^ 52)

/-- `C_Z` in units of 2^-64 (42_range_scaler.md R125). -/
def scaleZ : Nat := 2 ^ 32 + 1

/-- `C_N` in units of 2^-62 (42_range_scaler.md R125). -/
def scaleN : Nat := 2 ^ 31 + 1

/-- The double-precision product `d` of `zmap`, in units of 2^-64 (42_range_scaler.md R126). -/
def zmapProduct (raw : Word) : Nat := rneInt (raw.unsigned * scaleZ) 53

/-- The magnitude of the double-precision product `d` of `nmap`, in units of 2^-62
(42_range_scaler.md R127). -/
def nmapProduct (raw : Word) : Nat := rneInt (raw.signed.natAbs * scaleN) 53

/-- `zmap`, zero-to-one: two roundings, in this order (42_range_scaler.md R126, R131, R143). -/
def zmap (raw : Word) : Word := enc32Int false (rneInt (zmapProduct raw) 24) 64

/-- `nmap`, neg-one-to-one: the same on the signed reading; the asymmetry is kept and nothing is
clamped (42_range_scaler.md R127, R131, R141). -/
def nmap (raw : Word) : Word := enc32Int (decide (raw.signed < 0)) (rneInt (nmapProduct raw) 24) 62

/-- NOISE_Z1D (42_range_scaler.md R133). -/
def execNoiseZ1D (x seed : Word) (s : State) : Host.Outcome State Fault Refusal :=
  .next (s.complete (zmap (noiseUint1D x seed)))

/-- NOISE_Z2D (42_range_scaler.md R134). -/
def execNoiseZ2D (x y seed : Word) (s : State) : Host.Outcome State Fault Refusal :=
  .next (s.complete (zmap (noiseUint2D x y seed)))

/-- NOISE_Z3D (42_range_scaler.md R135). -/
def execNoiseZ3D (x y z seed : Word) (s : State) : Host.Outcome State Fault Refusal :=
  .next (s.complete (zmap (noiseUint3D x y z seed)))

/-- NOISE_Z4D (42_range_scaler.md R136). -/
def execNoiseZ4D (x y z t seed : Word) (s : State) : Host.Outcome State Fault Refusal :=
  .next (s.complete (zmap (noiseUint4D x y z t seed)))

/-- NOISE_N1D (42_range_scaler.md R137). -/
def execNoiseN1D (x seed : Word) (s : State) : Host.Outcome State Fault Refusal :=
  .next (s.complete (nmap (noiseUint1D x seed)))

/-- NOISE_N2D (42_range_scaler.md R138). -/
def execNoiseN2D (x y seed : Word) (s : State) : Host.Outcome State Fault Refusal :=
  .next (s.complete (nmap (noiseUint2D x y seed)))

/-- NOISE_N3D (42_range_scaler.md R139). -/
def execNoiseN3D (x y z seed : Word) (s : State) : Host.Outcome State Fault Refusal :=
  .next (s.complete (nmap (noiseUint3D x y z seed)))

/-- NOISE_N4D (42_range_scaler.md R140). -/
def execNoiseN4D (x y z t seed : Word) (s : State) : Host.Outcome State Fault Refusal :=
  .next (s.complete (nmap (noiseUint4D x y z t seed)))

end Sys2Proof.Machine
end

