-- ==== Sys2Proof/Machine/Dispatch.lean ====
section
/-! DEFINITION. One arm per constructor of Instr, each one direct call of its meaning
(30_encoding.md R58). -/

namespace Sys2Proof.Machine

def exec (i : Instr) (s : State) : Host.Outcome State Fault Refusal :=
  match i with
  | .noiseU1D x seed => Sys2Proof.Machine.execNoiseU1D x seed s
  | .noiseU2D x y seed => Sys2Proof.Machine.execNoiseU2D x y seed s
  | .noiseU3D x y z seed => Sys2Proof.Machine.execNoiseU3D x y z seed s
  | .noiseU4D x y z t seed => Sys2Proof.Machine.execNoiseU4D x y z t seed s
  | .noiseZ1D x seed => Sys2Proof.Machine.execNoiseZ1D x seed s
  | .noiseZ2D x y seed => Sys2Proof.Machine.execNoiseZ2D x y seed s
  | .noiseZ3D x y z seed => Sys2Proof.Machine.execNoiseZ3D x y z seed s
  | .noiseZ4D x y z t seed => Sys2Proof.Machine.execNoiseZ4D x y z t seed s
  | .noiseN1D x seed => Sys2Proof.Machine.execNoiseN1D x seed s
  | .noiseN2D x y seed => Sys2Proof.Machine.execNoiseN2D x y seed s
  | .noiseN3D x y z seed => Sys2Proof.Machine.execNoiseN3D x y z seed s
  | .noiseN4D x y z t seed => Sys2Proof.Machine.execNoiseN4D x y z t seed s
  | .scramble position seed => Sys2Proof.Machine.execScramble position seed s

end Sys2Proof.Machine
end

