-- ==== Sys2Proof/Machine/Cycle.lean ====
section
/-! DEFINITION. One clock cycle of the block, for any timing, and runs of cycles. -/

namespace Sys2Proof.Machine

/-- One clock cycle (70_reset_and_hazards.md R180, R186). A request that is accepted is decoded and
executed, or, where its code is reserved, answered as an `IllegalOp`; then the response channel, a
reset edge and the next cycle's inputs follow. A cycle that accepts nothing only does the latter. -/
def clockCycle (t : Timing) (s : State) : Host.Outcome State Fault Refusal :=
  if acceptsOn t s.input then
    match decode s.input.request with
    | .ok i =>
      match exec i s with
      | .next s' => .next (s'.closeCycle t)
      | .fault f => .fault f
      | .refused r => .refused r
    | .error (.reservedCode _) => .next (s.raiseIllegalOp.closeCycle t)
  else .next (s.closeCycle t)

/-- `n` clock cycles, stopping where one does not answer a next state. -/
def runCycles (t : Timing) : Nat → State → Host.Outcome State Fault Refusal
  | 0, s => .next s
  | n + 1, s =>
    match clockCycle t s with
    | .next s' => runCycles t n s'
    | .fault f => .fault f
    | .refused r => .refused r

end Sys2Proof.Machine
end

