-- ==== Sys2Proof/Machine/Step.lean ====
section
/-! DEFINITION. The step of the machine: one clock cycle of the implementation whose timing Config
leaves open. -/

namespace Sys2Proof.Machine

/-- One clock cycle ending at a rising edge of `clk` (10_state.md R30; log 2). -/
def step (s : State) : Host.Outcome State Fault Refusal := clockCycle Config.timing s

/-- `s` with the request of a table word presented in the next cycle (logs 1 and 13). -/
def State.withFetchWord (s : State) (nbits w : Nat) : State :=
  s.presentWord (tableRequestWord nbits w)

end Sys2Proof.Machine
end

