-- ==== Sys2Proof/Machine/Assembler.lean ====
section
/-! DEFINITION. The textual form of requests and responses (30_encoding.md R55, R56, R66 to R68): the
assembler from a parsed line to a request, the reading of a line of text, and the hexadecimal
writing of packed words. The block itself never sees text; this is the notation the spec writes its
requests in (log 14). -/

namespace Sys2Proof.Machine

/-- Why the assembler refuses a line (30_encoding.md R66, R67). -/
inductive AsmError where
  /-- The text does not have the form of 30_encoding.md R66: safe, no request is made. -/
  | unreadable
  /-- The name is no mnemonic, alias or reserved-code name (R66, R68): safe, no request is made. -/
  | unknownName
  /-- The number of coordinates is not the operation's (R66): safe, no request is made. -/
  | wrongArity
  /-- A coordinate is outside its range; it is never wrapped (R67): safe, no request is made. -/
  | coordOutOfRange
  /-- The seed is outside its range; it is never wrapped (R67): safe, no request is made. -/
  | seedOutOfRange
  deriving DecidableEq, Repr

/-- The 32-bit pattern of a numeral in its range (30_encoding.md R67, 00_scope.md R13). -/
def numeralWord : Numeral → Word
  | .dec v => BitVec.ofInt 32 v
  | .hex v => BitVec.ofNat 32 v
  | .int32Min => 0x80000000#32
  | .int32Max => 0x7FFFFFFF#32

/-- A coordinate numeral denotes this field: a decimal its signed reading, a hexadecimal literal its
pattern, and the two names their numbers (30_encoding.md R67). -/
def coordDenotes : Numeral → Word → Prop
  | .dec v, b => b.signed = v
  | .hex v, b => b.unsigned = v
  | .int32Min, b => b.signed = -2147483648
  | .int32Max, b => b.signed = 2147483647

/-- A seed numeral denotes this field: the unsigned reading is its value. The two names denote no seed
(30_encoding.md R67; log 14). -/
def seedDenotes : Numeral → Word → Prop
  | .dec v, b => (b.unsigned : Int) = v
  | .hex v, b => b.unsigned = v
  | .int32Min, _ => False
  | .int32Max, _ => False

/-- The field of the coordinate at position `k` of a line: what the numeral there denotes, and zero where
the line gives none (30_encoding.md R66). -/
def fieldDenoted (coords : List Numeral) (k : Nat) (b : Word) : Prop :=
  match coords[k]? with
  | some n => coordDenotes n b
  | none => b = 0

/-- The coordinate at a position, zero where the line gives none (30_encoding.md R66). -/
def coordWord (coords : List Numeral) (k : Nat) : Word :=
  match coords[k]? with
  | some n => numeralWord n
  | none => 0

/-- The assembler (30_encoding.md R66 to R68): every field the operation does not read is zero. -/
def assemble : AsmLine → Except AsmError Request
  | .reserved name =>
    match reservedCodes.lookup name with
    | some op => .ok ⟨op, 0, 0, 0, 0, 0⟩
    | none => .error .unknownName
  | .request name coords seed =>
    match codeOfName name with
    | none => .error .unknownName
    | some op =>
      if coords.length ≠ arityOfCode op then .error .wrongArity
      else if !coords.all Numeral.coordInRange then .error .coordOutOfRange
      else if !seed.seedInRange then .error .seedOutOfRange
      else .ok ⟨op, numeralWord seed, coordWord coords 3, coordWord coords 2, coordWord coords 1,
        coordWord coords 0⟩

/-- The text split at every occurrence of a character. -/
def splitAtChar (sep : Char) : List Char → List (List Char)
  | [] => [[]]
  | c :: cs =>
    match splitAtChar sep cs with
    | [] => [[c]]
    | w :: ws => if c = sep then [] :: w :: ws else (c :: w) :: ws

/-- The text without the spaces around it (DESIGN CHOICE, log 14). -/
def trimSpaces (cs : List Char) : List Char :=
  ((cs.dropWhile (· == ' ')).reverse.dropWhile (· == ' ')).reverse

/-- The value of a digit below the base; hexadecimal digits in either case (DESIGN CHOICE, log 14). -/
def digitValue (base : Nat) (c : Char) : Option Nat :=
  let v :=
    if '0' ≤ c ∧ c ≤ '9' then c.toNat - '0'.toNat
    else if 'A' ≤ c ∧ c ≤ 'F' then c.toNat - 'A'.toNat + 10
    else if 'a' ≤ c ∧ c ≤ 'f' then c.toNat - 'a'.toNat + 10
    else base
  if v < base then some v else none

/-- A non-empty string of digits, most significant first. DESIGN CHOICE (log 14): 00_scope.md R12 lets an
underscore group the digits of a literal in the spec's own notation, and 30_encoding.md R67 does not say
whether a numeral of the assembler text may hold one; the model reads none, so `0xDEAD_BEEF` is
unreadable. -/
def readDigits (base : Nat) (cs : List Char) : Option Nat :=
  if cs.isEmpty then none
  else cs.foldl (fun acc c => acc.bind fun a => (digitValue base c).map fun d => a * base + d) (some 0)

/-- A numeral: the two names, a hexadecimal literal, or a decimal with an optional minus sign
(30_encoding.md R67). DESIGN CHOICE (log 14): R67 says only "signed" and "unsigned" decimal; the model
reads a minus sign and no plus sign, so `+5` is unreadable, `-0` is the number 0 and may be a seed, and a
negative seed is read here and refused by its range. -/
def readNumeral (cs : List Char) : Option Numeral :=
  if cs = "INT32_MIN".toList then some .int32Min
  else if cs = "INT32_MAX".toList then some .int32Max
  else
    match cs with
    | '0' :: 'x' :: ds => (readDigits 16 ds).map Numeral.hex
    | '-' :: ds => (readDigits 10 ds).map fun n => Numeral.dec (-(n : Int))
    | ds => (readDigits 10 ds).map fun n => Numeral.dec (n : Int)

/-- A line of text: `<mnemonic> <coord>{, <coord>} ; seed=<seed>`, or the name of a reserved code alone
(30_encoding.md R66). DESIGN CHOICE (log 14): the line ends there. The expected response that R66 writes
after `=>` in a test vector is no part of the line the assembler reads, and a line that carries one is not
assembled; `responseText` writes such a response. -/
def readLine (cs : List Char) : Option AsmLine :=
  match splitAtChar ';' cs with
  | [only] => some (.reserved (String.ofList (trimSpaces only)))
  | [left, right] =>
    let l := trimSpaces left
    let r := trimSpaces right
    if "seed=".toList.isPrefixOf r then do
      let coords ← (splitAtChar ',' (l.dropWhile (· != ' '))).mapM fun c => readNumeral (trimSpaces c)
      let seed ← readNumeral (r.drop 5)
      pure (.request (String.ofList (l.takeWhile (· != ' '))) coords seed)
    else none
  | _ => none

/-- A line of text assembled to a request. -/
def assembleText (cs : List Char) : Except AsmError Request :=
  match readLine cs with
  | some l => assemble l
  | none => .error .unreadable

/-- A hexadecimal digit, as the spec writes it. -/
def hexDigit (v : BitVec 4) : Char := "0123456789ABCDEF".toList.getD v.toNat '0'

/-- The eight digits of a word, most significant first (92_eei_decisions.md D12). -/
def hexWord (v : Word) : List Char :=
  [hexDigit (v.extractLsb 31 28), hexDigit (v.extractLsb 27 24), hexDigit (v.extractLsb 23 20),
   hexDigit (v.extractLsb 19 16), hexDigit (v.extractLsb 15 12), hexDigit (v.extractLsb 11 8),
   hexDigit (v.extractLsb 7 4), hexDigit (v.extractLsb 3 0)]

/-- A packed request in hexadecimal, `op_seed_t_z_y_x` (30_encoding.md R55). -/
def requestText (q : Request) : List Char :=
  hexDigit q.op :: '_' :: hexWord q.seed ++ '_' :: hexWord q.t ++ '_' :: hexWord q.z ++ '_' :: hexWord q.y
    ++ '_' :: hexWord q.x

/-- A packed response in hexadecimal, `e_rrrrrrrr` (30_encoding.md R56). -/
def responseText (p : Response) : List Char :=
  (if p.err then '1' else '0') :: '_' :: hexWord p.result

end Sys2Proof.Machine
end

