-- ==== Sys2Proof/Machine/RealScaler.lean ====
section
/-! DEFINITION. The range scaler as 42_range_scaler.md R121 to R127 writes it, over the rationals. The
machine runs the integer form of Machine/RangeScaler.lean; this file is what that form is held to. -/

namespace Sys2Proof.Machine

/-- `fl_p`: the nearest rational with a `p`-bit binary significand, ties to the even one
(42_range_scaler.md R123). -/
def flRat (p : Nat) (v : ℚ) : ℚ :=
  if v = 0 then 0
  else
    let e := Int.log 2 |v|
    let ulp : ℚ := 2 ^ (e - p + 1)
    let q := |v| / ulp
    let n := ⌊q⌋
    let r := q - n
    let n' := if 1 / 2 < r ∨ (r = 1 / 2 ∧ n % 2 = 1) then n + 1 else n
    (if v < 0 then -1 else 1) * n' * ulp

/-- `enc32` of a rational that is zero or has a 24-bit significand (42_range_scaler.md R122). -/
def enc32Rat (v : ℚ) : Word :=
  if v = 0 then 0
  else
    let e := Int.log 2 |v|
    let m := |v| / 2 ^ (e - 23)
    BitVec.ofBool (decide (v < 0)) ++ BitVec.ofInt 8 (e + 127) ++ BitVec.ofInt 23 (⌊m⌋ - 2 ^ 23)

/-- The real number a binary32 pattern encodes, for the patterns that 42_range_scaler.md R122 gives a
number: `0 < E < 255`, and the all-zero word. -/
def valueOf32 (b : Word) : Option ℚ :=
  let E := (b.extractLsb 30 23).toNat
  let F := (b.extractLsb 22 0).toNat
  if b = 0 then some 0
  else if 0 < E ∧ E < 255 then
    some ((if b.getLsbD 31 then -1 else 1) * 2 ^ ((E : Int) - 127) * (1 + (F : ℚ) / 2 ^ 23))
  else none

/-- `C_Z = fl53(1 / 4294967295)` (42_range_scaler.md R125). -/
def scaleZRat : ℚ := flRat 53 (1 / 4294967295)

/-- `C_N = fl53(1 / 2147483647)` (42_range_scaler.md R125). -/
def scaleNRat : ℚ := flRat 53 (1 / 2147483647)

/-- The double `d` of 42_range_scaler.md R126. -/
def zmapDouble (raw : Word) : ℚ := flRat 53 ((raw.unsigned : ℚ) * scaleZRat)

/-- The double `d` of 42_range_scaler.md R127. -/
def nmapDouble (raw : Word) : ℚ := flRat 53 ((raw.signed : ℚ) * scaleNRat)

/-- `zmap` as 42_range_scaler.md R126 writes it. -/
def zmapRat (raw : Word) : Word := enc32Rat (flRat 24 (zmapDouble raw))

/-- `nmap` as 42_range_scaler.md R127 writes it. -/
def nmapRat (raw : Word) : Word := enc32Rat (flRat 24 (nmapDouble raw))

end Sys2Proof.Machine
end

