-- ==== Sys2Proof/Machine/Respond.lean ====
section
/-! DEFINITION. The block at the transaction level (00_scope.md R18): the function `respond` from a
request to its response, written as 30_encoding.md R69 writes it, by the two selectors of `op` and
not through the decoder; and which responses a request may be answered with. -/

namespace Sys2Proof.Machine

/-- The folded position of a request with `op[3:2]` other than `11` (30_encoding.md R69). -/
def respondPosition (q : Request) : Word :=
  match (dimSelector q.op).toNat with
  | 0 => fold1 q.x
  | 1 => fold2 q.x q.y
  | 2 => fold3 q.x q.y q.z
  | _ => fold4 q.x q.y q.z q.t

/-- `respond` of 30_encoding.md R69, total on every request; `drawn` stands for the unspecified
`result` of an `IllegalOp` response. -/
def respond (drawn : Word) (q : Request) : Response :=
  if mapSelector q.op = 0b11#2 then
    if dimSelector q.op = 0b00#2 then ⟨false, scramble q.x q.seed⟩
    else ⟨true, drawn⟩
  else
    let raw := scramble (respondPosition q) q.seed
    if mapSelector q.op = 0b00#2 then ⟨false, raw⟩
    else if mapSelector q.op = 0b01#2 then ⟨false, zmap raw⟩
    else ⟨false, nmap raw⟩

/-- `p` is a response the spec allows to the request `q`: for a reserved code any response with
`err` = 1, else the one response of 30_encoding.md R69 (60_exceptions.md R161). -/
def Answers (q : Request) (p : Response) : Prop := ∃ drawn, p = respond drawn q

end Sys2Proof.Machine
end

