-- ==== Sys2Proof/Safety.lean ====
section
/-! DEFINITION. The terms claims about runs are stated in: what the requester presents in each cycle of
a run, which requests are accepted, which are cut off by a reset, when the pipeline is sound, and
when a run is free of `IllegalOp` responses (60_exceptions.md R161). -/

namespace Sys2Proof.Machine

/-- What is driven on the input ports in cycle `c` of a run whose schedule is `ins`. -/
def inputAt (ins : List PortInput) (c : Nat) : PortInput := ins.getD c PortInput.idle

/-- The requests accepted in a run over the schedule `ins`, in order (00_scope.md R18). -/
def acceptedRequests (t : Timing) (ins : List PortInput) : List Request :=
  (ins.filter (acceptsOn t)).map PortInput.request

/-- A reset edge falls strictly between cycles `c` and `d`, so that a response due in cycle `d` to a
request of cycle `c` is cut off (70_reset_and_hazards.md R188). -/
def resetBetween (t : Timing) (ins : List PortInput) (c d : Nat) : Prop :=
  ∃ j, c < j ∧ j < d ∧ resetsOn t (inputAt ins j) = true

/-- The pipeline is sound: requests of different cycles, oldest first, none older than `LATENCY`
(70_reset_and_hazards.md R186, R187). -/
def PipelineOk (t : Timing) (s : State) : Prop :=
  s.inFlight.Pairwise (fun a b => b.age < a.age) ∧ ∀ e ∈ s.inFlight, 1 ≤ e.age ∧ e.age ≤ t.latency

/-- The response channel is in step with the record of delivered responses (00_scope.md R18). -/
def ChannelOk (s : State) : Prop := ∀ p, s.rsp = some p → s.responses.getLast? = some p

/-- The invariant of the machine. -/
def Inv (t : Timing) (s : State) : Prop := PipelineOk t s ∧ ChannelOk s

/-- No response delivered so far is an `IllegalOp`: the premise the spec gives claims about a run
(60_exceptions.md R161). -/
def ErrFree (s : State) : Prop := ∀ p ∈ s.responses, p.err = false

/-- What a response tells: `err`, and `result` where `err` is 0; the `result` of an `IllegalOp` response
must not be read (30_encoding.md R70, 60_exceptions.md R161). -/
def visible (p : Response) : Bool × Option Word := (p.err, if p.err then none else some p.result)

/-- Every request the schedule presents has an assigned code (30_encoding.md R62). -/
def AllAssigned (ins : List PortInput) : Prop :=
  ∀ p ∈ ins, p.reqValid = true → p.request.assigned = true

end Sys2Proof.Machine
end

