-- ==== Sys2Proof/Certificates/Slice0/Obligations.lean ====
section
/-! DEFINITION. The statements for the provers. No statement rests on a value of a free constant of
Config: `LATENCY` is an argument (`t.latency`) wherever a run is spoken of, and the `result` of an
`IllegalOp` response is a bound variable or the free constant itself. -/

open Sys2Proof Sys2Proof.Machine

/-! ## Encoding -/

/-- 30_encoding.md R55: packing loses nothing, and each field stands at the bits of the table. -/
def Obligations.RequestPackingKeepsEveryField : Prop :=
  (∀ q : Request, Request.unpack q.pack = q) ∧
  (∀ w : BitVec 164, (Request.unpack w).pack = w) ∧
  (∀ (w : BitVec 164) (k : Nat),
    (Request.unpack w).op.getLsbD k = (decide (k < 4) && w.getLsbD (160 + k)) ∧
    (Request.unpack w).seed.getLsbD k = (decide (k < 32) && w.getLsbD (128 + k)) ∧
    (Request.unpack w).t.getLsbD k = (decide (k < 32) && w.getLsbD (96 + k)) ∧
    (Request.unpack w).z.getLsbD k = (decide (k < 32) && w.getLsbD (64 + k)) ∧
    (Request.unpack w).y.getLsbD k = (decide (k < 32) && w.getLsbD (32 + k)) ∧
    (Request.unpack w).x.getLsbD k = (decide (k < 32) && w.getLsbD k))

/-- 30_encoding.md R56: packing a response loses nothing; `err` is bit 32, `result` bits 31:0. -/
def Obligations.ResponsePackingKeepsEveryField : Prop :=
  (∀ p : Response, Response.unpack p.pack = p) ∧
  (∀ w : BitVec 33, (Response.unpack w).pack = w) ∧
  (∀ p : Response, p.pack.getLsbD 32 = p.err ∧ ∀ k < 32, p.pack.getLsbD k = p.result.getLsbD k)

/-- Every operation's canonical request word decodes to that operation, with every operand at every
value (30_encoding.md R55, R58, R59, R66). -/
def Obligations.DecodeOfEncodeIsTheInstruction : Prop :=
  ∀ i : Instr, decodeWord (encode i) = .ok i

/-- Whatever word decodes to an operation, the operation's own encoding is that word with the fields
it does not read set to zero (30_encoding.md R59, R60, R66). -/
def Obligations.EncodeOfDecodeIsTheCanonicalWord : Prop :=
  ∀ (w : BitVec 164) (i : Instr), decodeWord w = .ok i →
    encode i = (canonicalRequest (Request.unpack w)).pack

/-- 30_encoding.md R58: a word whose top digit, under the mask, is the code `c` decodes to the operation
whose encoding has the code `c`, and only such a word does; for a reserved `c` it is rejected by name. -/
def Obligations.MaskAndMatchSelectTheOperation : Prop :=
  ∀ (w : BitVec 164) (c : BitVec 4),
    w &&& 0xF0000000000000000000000000000000000000000#164 = BitVec.setWidth 164 c <<< 160 ↔
      if c.toNat < 13 then ∃ i, decodeWord w = .ok i ∧ (encodeRequest i).op = c
      else decodeWord w = .error (.reservedCode c)

/-- 30_encoding.md R58, R59, R62: the row of every code, with the fields it reads in their order. -/
def Obligations.EveryCodeDecodesToItsRow : Prop :=
  ∀ x y z t seed : Word,
    decode ⟨0x0, seed, t, z, y, x⟩ = .ok (.noiseU1D x seed) ∧
    decode ⟨0x1, seed, t, z, y, x⟩ = .ok (.noiseU2D x y seed) ∧
    decode ⟨0x2, seed, t, z, y, x⟩ = .ok (.noiseU3D x y z seed) ∧
    decode ⟨0x3, seed, t, z, y, x⟩ = .ok (.noiseU4D x y z t seed) ∧
    decode ⟨0x4, seed, t, z, y, x⟩ = .ok (.noiseZ1D x seed) ∧
    decode ⟨0x5, seed, t, z, y, x⟩ = .ok (.noiseZ2D x y seed) ∧
    decode ⟨0x6, seed, t, z, y, x⟩ = .ok (.noiseZ3D x y z seed) ∧
    decode ⟨0x7, seed, t, z, y, x⟩ = .ok (.noiseZ4D x y z t seed) ∧
    decode ⟨0x8, seed, t, z, y, x⟩ = .ok (.noiseN1D x seed) ∧
    decode ⟨0x9, seed, t, z, y, x⟩ = .ok (.noiseN2D x y seed) ∧
    decode ⟨0xA, seed, t, z, y, x⟩ = .ok (.noiseN3D x y z seed) ∧
    decode ⟨0xB, seed, t, z, y, x⟩ = .ok (.noiseN4D x y z t seed) ∧
    decode ⟨0xC, seed, t, z, y, x⟩ = .ok (.scramble x seed) ∧
    decode ⟨0xD, seed, t, z, y, x⟩ = .error (.reservedCode 0xD) ∧
    decode ⟨0xE, seed, t, z, y, x⟩ = .error (.reservedCode 0xE) ∧
    decode ⟨0xF, seed, t, z, y, x⟩ = .error (.reservedCode 0xF)

/-- Words written out from the table of 30_encoding.md R55 and R58 decode to what they stand for. -/
def Obligations.SpecWordsDecode : Prop :=
  decodeWord 0xC0000000000000000000000000000000000000001#164 = .ok (.scramble 1 0) ∧
  decodeWord 0x1000000000000000000000000FFFFFFFE00000003#164 = .ok (.noiseU2D 3 0xFFFFFFFE 0) ∧
  decodeWord 0x7DEADBEEF00000004000000030000000200000001#164 = .ok (.noiseZ4D 1 2 3 4 0xDEADBEEF) ∧
  decodeWord 0x8FFFFFFFF33333333222222221111111180000000#164 = .ok (.noiseN1D 0x80000000 0xFFFFFFFF) ∧
  decodeWord 0xFFFFFFFFF80000000800000008000000080000000#164 = .error (.reservedCode 0xF)

/-- 30_encoding.md R60, R62: the response and the decoded operation do not depend on the fields the
operation does not read, and a reserved code reads none. -/
def Obligations.UnreadFieldsAreIgnored : Prop :=
  (∀ (drawn : Word) (q : Request),
    respond drawn q = respond drawn (canonicalRequest q) ∧ decode q = decode (canonicalRequest q)) ∧
  (∀ (drawn : Word) (q : Request) (x y z t seed : Word), errOfCode q.op = true →
    respond drawn q = respond drawn ⟨q.op, seed, t, z, y, x⟩ ∧
    decode q = decode ⟨q.op, seed, t, z, y, x⟩)

/-- The assembler makes a request of exactly the well-formed lines; the request has the code of the
line's name and is in canonical form (30_encoding.md R66, R67, R68). That a seed written INT32_MIN or
INT32_MAX is refused is the model's choice (DESIGN CHOICE, log 14). -/
def Obligations.AssemblerTakesExactlyTheWellFormedLines : Prop :=
  ∀ l : AsmLine,
    if l.wellFormed then ∃ q, assemble l = .ok q ∧ canonicalRequest q = q ∧
      (match l with
        | .request name _ _ => codeOfName name = some q.op ∧ q.assigned = true
        | .reserved name => reservedCodes.lookup name = some q.op ∧ errOfCode q.op = true)
    else ∃ e, assemble l = .error e

/-- Every well-formed request line, under every mnemonic and alias, assembles to the request of its
operation: the code of its name, in `x`, `y`, `z`, `t` what the coordinates 0 to 3 denote and zero where the
line gives none, and in `seed` what the seed numeral denotes (30_encoding.md R58, R66, R67, R68). Decimal
numerals are integers, hexadecimal ones patterns. That no well-formed line has INT32_MIN or INT32_MAX for
a seed is the model's choice (DESIGN CHOICE, log 14). -/
def Obligations.AssembledLineHasItsOperationAndValues : Prop :=
  (∀ (name : String) (coords : List Numeral) (seed : Numeral),
    (AsmLine.request name coords seed).wellFormed = true →
    ∃ q, assemble (.request name coords seed) = .ok q ∧ codeOfName name = some q.op ∧
      coords.length = arityOfCode q.op ∧
      fieldDenoted coords 0 q.x ∧ fieldDenoted coords 1 q.y ∧ fieldDenoted coords 2 q.z ∧
      fieldDenoted coords 3 q.t ∧ seedDenotes seed q.seed) ∧
  ["NOISE_U1D", "NOISE_U2D", "NOISE_U3D", "NOISE_U4D", "NOISE_Z1D", "NOISE_Z2D", "NOISE_Z3D",
    "NOISE_Z4D", "NOISE_N1D", "NOISE_N2D", "NOISE_N3D", "NOISE_N4D", "SCRAMBLE"].map codeOfName =
    (List.range 13).map (fun c => some (BitVec.ofNat 4 c)) ∧
  ["noiseUint1D", "noiseUint2D", "noiseUint3D", "noiseUint4D", "noiseZeroToOne1D", "noiseZeroToOne2D",
    "noiseZeroToOne3D", "noiseZeroToOne4D", "noiseNegOneToOne1D", "noiseNegOneToOne2D",
    "noiseNegOneToOne3D", "noiseNegOneToOne4D", "scramble"].map codeOfName =
    (List.range 13).map (fun c => some (BitVec.ofNat 4 c)) ∧
  (List.range 13).map (fun c => arityOfCode (BitVec.ofNat 4 c)) = [1, 2, 3, 4, 1, 2, 3, 4, 1, 2, 3, 4, 1]

/-! ## One request -/

/-- 30_encoding.md R69: for every request and state, decoding and executing answers what the function
`respond` of the rule answers, with everything else in the state unchanged; for a reserved code the
decoder rejects by name and the rule's answer is `err` = 1 with the drawn `result`. -/
def Obligations.DecodeThenExecIsRespond : Prop :=
  ∀ (q : Request) (s : State) (drawn : Word),
    if errOfCode q.op then
      decode q = .error (.reservedCode q.op) ∧ respond drawn q = ⟨true, drawn⟩
    else ∃ i, decode q = .ok i ∧
      exec i s = .next { s with inFlight := s.inFlight ++ [⟨respond drawn q, 0⟩] }

/-- Every one of the thirteen operations completes normally with `err` = 0 for every operand and in every
state, its `result` not depending on any draw (60_exceptions.md R160; that `err` is 0 then is the spec's own
reading, D22), and `err` is 1 exactly for the codes `0xD`, `0xE`, `0xF` (R161, 30_encoding.md R62). -/
def Obligations.ErrExactlyForReservedCodes : Prop :=
  (∀ (i : Instr) (s : State), ∃ result,
    exec i s = .next { s with inFlight := s.inFlight ++ [⟨⟨false, result⟩, 0⟩] }) ∧
  ∀ (drawn drawn' : Word) (q : Request),
    ((respond drawn q).err = true ↔ 13 ≤ q.op.toNat) ∧
    (q.op.toNat < 13 → respond drawn q = respond drawn' q)

/-- SCRAMBLE completes for every operand and every state, with its result of 40_scrambler.md R82 in
flight and nothing else changed (R89). -/
def Obligations.ScrambleCompletes : Prop :=
  ∀ (position seed : Word) (s : State),
    exec (.scramble position seed) s =
      .next { s with inFlight := s.inFlight ++ [⟨⟨false, scramble position seed⟩, 0⟩] }

/-- NOISE_U1D to NOISE_U4D complete for every operand and every state, with the scramble of the folded
position in flight and nothing else changed (41_coordinate_folder.md R107 to R110). -/
def Obligations.NoiseUCompletes : Prop :=
  ∀ (x y z t seed : Word) (s : State),
    exec (.noiseU1D x seed) s =
      .next { s with inFlight := s.inFlight ++ [⟨⟨false, scramble x seed⟩, 0⟩] } ∧
    exec (.noiseU2D x y seed) s =
      .next { s with inFlight := s.inFlight ++
        [⟨⟨false, scramble (x + 0x0BD4BCB5#32 * y) seed⟩, 0⟩] } ∧
    exec (.noiseU3D x y z seed) s =
      .next { s with inFlight := s.inFlight ++
        [⟨⟨false, scramble (x + 0x0BD4BCB5#32 * y + 0x0063D68D#32 * z) seed⟩, 0⟩] } ∧
    exec (.noiseU4D x y z t seed) s =
      .next { s with inFlight := s.inFlight ++
        [⟨⟨false, scramble (x + 0x0BD4BCB5#32 * y + 0x0063D68D#32 * z + 0x00057377#32 * t) seed⟩, 0⟩] }

/-- NOISE_Z1D to NOISE_Z4D complete for every operand and every state, with `zmap` of the raw noise in
flight and nothing else changed (42_range_scaler.md R132 to R136). -/
def Obligations.NoiseZCompletes : Prop :=
  ∀ (x y z t seed : Word) (s : State),
    exec (.noiseZ1D x seed) s =
      .next { s with inFlight := s.inFlight ++ [⟨⟨false, zmap (scramble (fold1 x) seed)⟩, 0⟩] } ∧
    exec (.noiseZ2D x y seed) s =
      .next { s with inFlight := s.inFlight ++ [⟨⟨false, zmap (scramble (fold2 x y) seed)⟩, 0⟩] } ∧
    exec (.noiseZ3D x y z seed) s =
      .next { s with inFlight := s.inFlight ++ [⟨⟨false, zmap (scramble (fold3 x y z) seed)⟩, 0⟩] } ∧
    exec (.noiseZ4D x y z t seed) s =
      .next { s with inFlight := s.inFlight ++ [⟨⟨false, zmap (scramble (fold4 x y z t) seed)⟩, 0⟩] }

/-- NOISE_N1D to NOISE_N4D complete for every operand and every state, with `nmap` of the raw noise in
flight and nothing else changed (42_range_scaler.md R132, R137 to R140). -/
def Obligations.NoiseNCompletes : Prop :=
  ∀ (x y z t seed : Word) (s : State),
    exec (.noiseN1D x seed) s =
      .next { s with inFlight := s.inFlight ++ [⟨⟨false, nmap (scramble (fold1 x) seed)⟩, 0⟩] } ∧
    exec (.noiseN2D x y seed) s =
      .next { s with inFlight := s.inFlight ++ [⟨⟨false, nmap (scramble (fold2 x y) seed)⟩, 0⟩] } ∧
    exec (.noiseN3D x y z seed) s =
      .next { s with inFlight := s.inFlight ++ [⟨⟨false, nmap (scramble (fold3 x y z) seed)⟩, 0⟩] } ∧
    exec (.noiseN4D x y z t seed) s =
      .next { s with inFlight := s.inFlight ++ [⟨⟨false, nmap (scramble (fold4 x y z t) seed)⟩, 0⟩] }

/-- Zero higher coordinates reduce a fold to the lower one: the spec's own inference,
"`fold2(x, 0) = fold1(x) = x`; `fold3(x, y, 0) = fold2(x, y)`; `fold4(x, y, z, 0) = fold3(x, y, z)`", and the
source's property "`noiseUint2D(x, 0, seed) == scramble(x, seed)`" (41_coordinate_folder.md section 1). -/
def Obligations.ZeroCoordinatesReduceTheFold : Prop :=
  ∀ x y z seed : Word,
    fold2 x 0 = fold1 x ∧ fold1 x = x ∧ fold3 x y 0 = fold2 x y ∧ fold4 x y z 0 = fold3 x y z ∧
    fold4 x 0 0 0 = x ∧ fold3 x 0 0 = x ∧ fold2 x 0 = x ∧
    noiseUint2D x 0 seed = scramble x seed

/-- The same inference, seen in the operations: NOISE_U1D is SCRAMBLE ("`noiseUint1D` and `scramble` are
the same function of their two arguments", 41_coordinate_folder.md section 2), and a zero last coordinate
gives the outcome of the operation of one coordinate less, for all three mappings. -/
def Obligations.ZeroCoordinatesReduceTheOperation : Prop :=
  ∀ (x y z seed : Word) (s : State),
    exec (.noiseU1D x seed) s = exec (.scramble x seed) s ∧
    exec (.noiseU2D x 0 seed) s = exec (.noiseU1D x seed) s ∧
    exec (.noiseU3D x y 0 seed) s = exec (.noiseU2D x y seed) s ∧
    exec (.noiseU4D x y z 0 seed) s = exec (.noiseU3D x y z seed) s ∧
    exec (.noiseZ2D x 0 seed) s = exec (.noiseZ1D x seed) s ∧
    exec (.noiseZ3D x y 0 seed) s = exec (.noiseZ2D x y seed) s ∧
    exec (.noiseZ4D x y z 0 seed) s = exec (.noiseZ3D x y z seed) s ∧
    exec (.noiseN2D x 0 seed) s = exec (.noiseN1D x seed) s ∧
    exec (.noiseN3D x y 0 seed) s = exec (.noiseN2D x y seed) s ∧
    exec (.noiseN4D x y z 0 seed) s = exec (.noiseN3D x y z seed) s

/-! ## The scrambler -/

/-- 40_scrambler.md R82: the twelve steps, on the unsigned readings, each multiply and add reduced
modulo 2^32 and each shift a division by a power of two. -/
def Obligations.ScrambleIsTheTwelveSteps : Prop :=
  ∀ position seed : Word,
    let s1 := position.toNat
    let s2 := s1 * 0xd2a80a3f % 2 ^ 32
    let s3 := (s2 + seed.toNat) % 2 ^ 32
    let s4 := s3 ^^^ (s3 / 2 ^ 9)
    let s5 := (s4 + 0xa884f197) % 2 ^ 32
    let s6 := s5 ^^^ (s5 / 2 ^ 11)
    let s7 := s6 * 0x6C736F4B % 2 ^ 32
    let s8 := s7 ^^^ (s7 / 2 ^ 13)
    let s9 := (s8 + 0xB79F3ABB) % 2 ^ 32
    let s10 := s9 ^^^ (s9 / 2 ^ 15)
    let s11 := s10 * 0x1b56c4f5 % 2 ^ 32
    (scramble position seed).toNat = s11 ^^^ (s11 / 2 ^ 17)

/-- 40_scrambler.md R84, bit by bit, for every shift amount between 1 and 31. -/
def Obligations.ShiftXorBitByBit : Prop :=
  ∀ (n i : Nat) (b : Word), 0 < n → n < 32 → i < 32 →
    (shiftXor n b).getLsbD i =
      if 32 - n ≤ i then b.getLsbD i else Bool.xor (b.getLsbD i) (b.getLsbD (i + n))

/-- The spec's own inference "`s -> s ^ (s >> n)` with `0 < n < 32` is invertible" (40_scrambler.md
section 1). -/
def Obligations.ShiftXorIsABijection : Prop :=
  ∀ n : Nat, 0 < n → n < 32 → Function.Bijective (shiftXor n)

/-- The spec's own inference "For a fixed `seed`, `position -> scramble(position, seed)` is a bijection on
32-bit vectors, and for a fixed `position`, `seed -> scramble(position, seed)` is a bijection on 32-bit
vectors", which does not extend to two or more coordinates (40_scrambler.md section 1). -/
def Obligations.ScramblerIsABijectionInEachArgument : Prop :=
  (∀ seed : Word, Function.Bijective fun position : Word => scramble position seed) ∧
  (∀ position : Word, Function.Bijective fun seed : Word => scramble position seed) ∧
  (∀ seed : Word,
    ¬ Function.Injective (fun c : Word × Word => noiseUint2D c.1 c.2 seed) ∧
    ¬ Function.Injective (fun c : Word × Word × Word => noiseUint3D c.1 c.2.1 c.2.2 seed) ∧
    ¬ Function.Injective
      (fun c : Word × Word × Word × Word => noiseUint4D c.1 c.2.1 c.2.2.1 c.2.2.2 seed))

/-! ## The coordinate folder -/

/-- The pattern of each fold is the sum of products of the unsigned readings modulo 2^32, and `fold1` is the
identity (41_coordinate_folder.md R102). The signed clauses are the law of "32-bit signed wrapping
arithmetic" of section 1 (R103): the exact sum of the signed readings reduced to the signed range; that
both readings give one pattern is the spec's own inference. -/
def Obligations.FoldsAreWrappingSums : Prop :=
  ∀ x y z t : Word,
    (fold1 x).signed = x.signed ∧
    (fold2 x y).signed = (x.signed + 198491317 * y.signed).bmod (2 ^ 32) ∧
    (fold3 x y z).signed = (x.signed + 198491317 * y.signed + 6542989 * z.signed).bmod (2 ^ 32) ∧
    (fold4 x y z t).signed =
      (x.signed + 198491317 * y.signed + 6542989 * z.signed + 357239 * t.signed).bmod (2 ^ 32) ∧
    fold1 x = x ∧
    (fold2 x y).unsigned = (x.unsigned + 198491317 * y.unsigned) % 2 ^ 32 ∧
    (fold3 x y z).unsigned = (x.unsigned + 198491317 * y.unsigned + 6542989 * z.unsigned) % 2 ^ 32 ∧
    (fold4 x y z t).unsigned =
      (x.unsigned + 198491317 * y.unsigned + 6542989 * z.unsigned + 357239 * t.unsigned) % 2 ^ 32

/-- Different coordinates can fold to the same position and then give the same noise for every seed: the
spec's own inference, "The fold is not injective for two or more coordinates" (41_coordinate_folder.md
section 1), with its pairs. -/
def Obligations.FoldsCollide : Prop :=
  (∀ x y : Word, fold2 (x + foldP1) (y + 0xFFFFFFFF#32) = fold2 x y) ∧
  (∀ x y x' y' seed : Word, fold2 x y = fold2 x' y' → noiseUint2D x y seed = noiseUint2D x' y' seed) ∧
  ¬ Function.Injective (fun c : Word × Word => fold2 c.1 c.2) ∧
  ¬ Function.Injective (fun c : Word × Word × Word => fold3 c.1 c.2.1 c.2.2) ∧
  ¬ Function.Injective (fun c : Word × Word × Word × Word => fold4 c.1 c.2.1 c.2.2.1 c.2.2.2) ∧
  fold2 0x7FFFFFFF#32 0x7FFFFFFF#32 = 0xF42B434A#32 ∧
  fold2 0xFFFFFFFF#32 0xFFFFFFFF#32 = 0xF42B434A#32 ∧
  fold2 0x80000000#32 0x80000000#32 = 0 ∧ fold2 0 0 = 0 ∧
  fold4 0x80000000#32 0x80000000#32 0x80000000#32 0x80000000#32 = 0 ∧
  fold3 0x80000000#32 0x80000000#32 0x80000000#32 = 0x80000000#32

/-! ## The range scaler -/

/-- 42_range_scaler.md R125: each scale factor is the binary64 value nearest the exact quotient; its
fraction and pattern, which the spec marks as its own inference, are the ones the integer form uses. -/
def Obligations.ScaleFactorsAreRoundedReciprocals : Prop :=
  scaleZRat = 4294967297 / 2 ^ 64 ∧ scaleNRat = 2147483649 / 2 ^ 62 ∧
  (scaleZ : ℚ) / 2 ^ 64 = scaleZRat ∧ (scaleN : ℚ) / 2 ^ 62 = scaleNRat ∧
  enc64Int false scaleZ 64 = 0x3DF0000000100000#64 ∧
  enc64Int false scaleN 62 = 0x3E00000000200000#64

/-- 42_range_scaler.md R126: the `zmap` the machine runs is, for every raw value, the product with
`C_Z` rounded to 53 bits, rounded again to 24 bits, and encoded. -/
def Obligations.ZmapIsTwoRoundingsOfTheProduct : Prop :=
  ∀ raw : Word,
    zmap raw = enc32Rat (flRat 24 (flRat 53 ((raw.unsigned : ℚ) * flRat 53 (1 / 4294967295))))

/-- 42_range_scaler.md R127: the `nmap` the machine runs is, for every raw value, the product of the
signed reading with `C_N` rounded to 53 bits, rounded again to 24 bits, and encoded; the result is
negative exactly for raw values from `0x80000000` on. -/
def Obligations.NmapIsTwoRoundingsOfTheProduct : Prop :=
  ∀ raw : Word,
    nmap raw = enc32Rat (flRat 24 (flRat 53 ((raw.signed : ℚ) * flRat 53 (1 / 2147483647)))) ∧
    (nmap raw).getLsbD 31 = decide (0x80000000 ≤ raw.toNat) ∧
    Word.signed 0xFFFFFFFF#32 = -1 ∧ Word.signed 0x80000000#32 = -2147483648

/-- Rounding to nearest, ties to even (42_range_scaler.md R123), for the rounding the machine runs, the
spec's own inference `rne_int` (section 2; log 12): the result has at most `p` significant bits, no such
number is nearer, and of two equally near ones the even one is taken. -/
def Obligations.IntegerRoundingIsToNearestEven : Prop :=
  ∀ W p : Nat, 0 < p →
    (∃ m k, m ≤ 2 ^ p ∧ rneInt W p = m * 2 ^ k) ∧
    (∀ m k, m ≤ 2 ^ p → Nat.dist W (rneInt W p) ≤ Nat.dist W (m * 2 ^ k)) ∧
    (∀ sh, 2 ^ (p + sh) ≤ W → W < 2 ^ (p + sh + 1) → W % 2 ^ (sh + 1) = 2 ^ sh →
      rneInt W p / 2 ^ (sh + 1) % 2 = 0)

/-- 42_range_scaler.md R123: the rounding of rationals is symmetric in sign and monotone. -/
def Obligations.RoundingIsSymmetricAndMonotone : Prop :=
  ∀ (p : Nat) (v w : ℚ), 0 < p →
    flRat p (-v) = -flRat p v ∧ (v ≤ w → flRat p v ≤ flRat p w)

/-- Encoding a rational with a 24-bit significand and a normal exponent as binary32 loses nothing
(42_range_scaler.md R122). -/
def Obligations.Binary32EncodingKeepsTheValue : Prop :=
  ∀ (neg : Bool) (m : Nat) (e : Int), 2 ^ 23 ≤ m → m < 2 ^ 24 → -126 ≤ e → e ≤ 127 →
    let v : ℚ := (if neg then -1 else 1) * (m : ℚ) * 2 ^ (e - 23)
    valueOf32 (enc32Rat v) = some v

/-- Every scaled result encodes a number, in [0, 1] and in [-1, 1] (42_range_scaler.md R120), and, the
spec's own inference, "`zmap` is monotone non-decreasing in `u(raw)` and `nmap` is monotone non-decreasing
in `s(raw)`" (section 3). -/
def Obligations.ScaledNoiseStaysInRangeAndIsMonotone : Prop :=
  ∃ fz fn : Word → ℚ, ∀ a b : Word,
    valueOf32 (zmap a) = some (fz a) ∧ 0 ≤ fz a ∧ fz a ≤ 1 ∧
    valueOf32 (nmap a) = some (fn a) ∧ -1 ≤ fn a ∧ fn a ≤ 1 ∧
    (a.unsigned ≤ b.unsigned → fz a ≤ fz b) ∧ (a.signed ≤ b.signed → fn a ≤ fn b)

/-- Exactly the inputs that give 1.0, -1.0 and 0.0: the spec's own inference from an exhaustive count,
"The end values are reached by more than one input" (42_range_scaler.md section 3; 90_conflicts.md C2). -/
def Obligations.EndValuesHaveExactlyTheseInputs : Prop :=
  ∀ raw : Word,
    (zmap raw = 0x3F800000#32 ↔ 0xFFFFFF7F ≤ raw.toNat) ∧
    (nmap raw = 0x3F800000#32 ↔ 0x7FFFFFBF ≤ raw.toNat ∧ raw.toNat ≤ 0x7FFFFFFF) ∧
    (nmap raw = 0xBF800000#32 ↔ 0x80000000 ≤ raw.toNat ∧ raw.toNat ≤ 0x80000041) ∧
    (zmap raw = 0 ↔ raw = 0) ∧ (nmap raw = 0 ↔ raw = 0)

/-- No subnormal, infinity, NaN or negative zero arises, the spec's own inference "no operation ever
produces or consumes a subnormal, an infinity or a NaN" (42_range_scaler.md section 3); `zmap` never sets
the sign bit and `nmap` copies it from the raw value. -/
def Obligations.NoSpecialFloatArises : Prop :=
  ∀ raw : Word,
    (raw ≠ 0 →
      0 < ((zmap raw).extractLsb 30 23).toNat ∧ ((zmap raw).extractLsb 30 23).toNat < 255 ∧
      0 < ((nmap raw).extractLsb 30 23).toNat ∧ ((nmap raw).extractLsb 30 23).toNat < 255) ∧
    (zmap raw).getLsbD 31 = false ∧ (nmap raw).getLsbD 31 = raw.getLsbD 31 ∧
    zmap 0 = 0 ∧ nmap 0 = 0

/-- The spec's own inference "Rounding the exact product once, straight to 24 bits, gives a different
`result` from rules R126 and R127 for exactly four inputs" (42_range_scaler.md section 2), with the results
it gives. -/
def Obligations.SingleRoundingDiffersAtExactlyFourInputs : Prop :=
  (∀ raw : Word,
    (enc32Int false (rneInt (raw.unsigned * scaleZ) 24) 64 ≠ zmap raw ↔
      raw = 0xFFFFFD7F#32 ∨ raw = 0xFFFFFF7F#32) ∧
    (enc32Int (decide (raw.signed < 0)) (rneInt (raw.signed.natAbs * scaleN) 24) 62 ≠ nmap raw ↔
      raw = 0x7FFFFFBF#32 ∨ raw = 0x80000041#32)) ∧
  zmap 0xFFFFFD7F#32 = 0x3F7FFFFE#32 ∧ zmap 0xFFFFFF7F#32 = 0x3F800000#32 ∧
  nmap 0x7FFFFFBF#32 = 0x3F800000#32 ∧ nmap 0x80000041#32 = 0xBF800000#32

/-- 42_range_scaler.md R141: the product for the least signed value lies past -1, its result is -1.0,
and `nmap` of a negated value is the result with its sign bit changed, except at zero and there. -/
def Obligations.NmapAsymmetryIsKept : Prop :=
  nmapDouble 0x80000000#32 = -(1 + 1 / 2 ^ 31) ∧ nmap 0x80000000#32 = 0xBF800000#32 ∧
  nmapDouble 0x80000001#32 = -1 ∧ nmapDouble 0x7FFFFFFF#32 = 1 ∧
  ∀ raw : Word, raw ≠ 0 → raw ≠ 0x80000000#32 → nmap (-raw) = nmap raw ^^^ 0x80000000#32

/-! ## Cycles and runs -/

/-- When the requester presents a word that decodes to `i`, with `req_valid` = 1 and `rst` = 0, the step
is exec of `i` at that state, and around it the response channel of the cycle and the next cycle's
inputs (log 2; 10_state.md R28, 70_reset_and_hazards.md R186). That the counter of free values advances by
one is the model's choice (DESIGN CHOICE, log 9). -/
def Obligations.StepRunsTheDecodedInstruction : Prop :=
  ∀ (s s' : State) (i : Instr),
    s.input.reqValid = true → s.input.rst = false → decode s.input.request = .ok i →
    exec i s = .next s' →
    step s = .next
      { inputs := s.inputs.tail
        inFlight := ageAll (afterDue Config.latency s'.inFlight)
        rsp := dueResponse Config.latency s'.inFlight
        responses := s'.responses ++ (dueResponse Config.latency s'.inFlight).toList
        draws := s.draws + 1 }

/-- A cycle that presents no request and no reset only presents the response that is due
(10_state.md R28, R29). That the counter of free values advances by one is the model's choice
(DESIGN CHOICE, log 9). -/
def Obligations.IdleCycleOnlyDeliversWhatIsDue : Prop :=
  ∀ (t : Timing) (s : State), s.input.reqValid = false → s.input.rst = false →
    clockCycle t s = .next
      { inputs := s.inputs.tail
        inFlight := ageAll (afterDue t.latency s.inFlight)
        rsp := dueResponse t.latency s.inFlight
        responses := s.responses ++ (dueResponse t.latency s.inFlight).toList
        draws := s.draws + 1 }

/-- 60_exceptions.md R161, R174: an accepted request with a reserved code puts a response with `err` = 1
and the drawn `result` in flight, does nothing else, and the cycle goes on. -/
def Obligations.ReservedCodeIsAnsweredWithErr : Prop :=
  ∀ (t : Timing) (s : State), acceptsOn t s.input = true → errOfCode s.input.request.op = true →
    clockCycle t s = .next (State.closeCycle t
      { s with inFlight := s.inFlight ++ [⟨⟨true, Config.unspecifiedResult s.draws⟩, 0⟩] })

/-- Every clock cycle of every state completes: nothing stops the block (60_exceptions.md R160,
70_reset_and_hazards.md R189); it consumes one cycle's inputs, and the record of delivered responses
grows by what the response channel showed. That the counter of free values advances by one is the model's
choice (DESIGN CHOICE, log 9). -/
def Obligations.EveryCycleCompletes : Prop :=
  ∀ (t : Timing) (s : State), ∃ s', clockCycle t s = .next s' ∧ s'.inputs = s.inputs.tail ∧
    s'.draws = s.draws + 1 ∧ s'.responses = s.responses ++ s'.rsp.toList

/-- 70_reset_and_hazards.md R180, for a block with a pipeline: at a reset edge no request is accepted
and everything in flight is discarded, and in the cycle that begins at that edge `rsp_valid` is 0
whatever is presented in it. That the response already due in the reset cycle itself is still shown is
DEDUCED (log 6). -/
def Obligations.ResetEdgeEmptiesThePipeline : Prop :=
  ∀ (t : Timing) (s : State), 0 < t.latency → s.input.rst = true →
    ∃ s1 s2, clockCycle t s = .next s1 ∧ s1.inFlight = [] ∧
      s1.rsp = dueResponse t.latency s.inFlight ∧
      clockCycle t s1 = .next s2 ∧ s2.rspValidPort = false

/-- 10_state.md R30: a combinational block (`LATENCY` = 0) with `rst` unconnected has
`rsp_valid` = `req_valid` in every cycle, and its response is the one of the request presented in
that cycle (log 4). -/
def Obligations.CombinationalBlockAnswersInTheSameCycle : Prop :=
  ∀ s : State, s.inFlight = [] →
    ∃ s', clockCycle ⟨0, false⟩ s = .next s' ∧ s'.inFlight = [] ∧
      s'.rspValidPort = s.input.reqValid ∧
      ∀ p, s'.rsp = some p → Answers s.input.request p

/-- The invariant is kept by every step: requests in flight are of different cycles, oldest first, and
none is older than `LATENCY`; the response channel agrees with the record of delivered responses
(70_reset_and_hazards.md R186, R187; 00_scope.md R18). -/
def Obligations.EveryStepKeepsTheInvariant : Prop :=
  (∀ (t : Timing) (s s' : State), Inv t s → clockCycle t s = .next s' → Inv t s') ∧
  (∀ s s' : State, Inv Config.timing s → step s = .next s' → Inv Config.timing s')

/-- The invariant holds right after reset and in a block that was powered up and never reset. -/
def Obligations.ResetAndPowerUpMeetTheInvariant : Prop :=
  ∀ t : Timing, Inv t State.reset ∧ Inv t (State.powerUp t)

/-- 70_reset_and_hazards.md R187: at most `LATENCY` requests are in flight at once. -/
def Obligations.AtMostLatencyRequestsInFlight : Prop :=
  ∀ (t : Timing) (s : State), PipelineOk t s → s.inFlight.length ≤ t.latency

/-- 70_reset_and_hazards.md R186, R188, R189: from a state with nothing in flight, for every schedule of
inputs and every latency, cycle `n` shows a response exactly when cycle `n - LATENCY` accepted a
request and no reset edge fell strictly between, and that response answers that request. Around a reset
edge this is the model's DEDUCED reading of rules that differ (logs 5 and 6), and for `LATENCY` = 0 of
whether `rst` is connected (log 4). -/
def Obligations.ResponseComesLatencyCyclesAfterItsRequest : Prop :=
  ∀ (t : Timing) (s : State) (n : Nat), s.inFlight = [] →
    ∃ s', runCycles t (n + 1) s = .next s' ∧
      (s'.rsp.isSome = true ↔
        t.latency ≤ n ∧ acceptsOn t (inputAt s.inputs (n - t.latency)) = true ∧
        ¬ resetBetween t s.inputs (n - t.latency) n) ∧
      ∀ p, s'.rsp = some p → Answers (inputAt s.inputs (n - t.latency)).request p

/-- 00_scope.md R18, 20_memory.md R46: from a state with nothing in flight, a schedule without a reset,
followed by `LATENCY` further cycles, delivers exactly one response for each accepted request, in
request order, each one answering its own request, and leaves nothing in flight. -/
def Obligations.RunAnswersEveryRequestInOrder : Prop :=
  ∀ (t : Timing) (s : State), s.inFlight = [] → (∀ p ∈ s.inputs, p.rst = false) →
    ∃ s' ps, runCycles t (s.inputs.length + t.latency) s = .next s' ∧
      s'.responses = s.responses ++ ps ∧
      List.Forall₂ Answers (acceptedRequests t s.inputs) ps ∧ s'.inFlight = []

/-- 70_reset_and_hazards.md R188: with resets anywhere in the schedule, the responses delivered answer,
in order, a sublist of the accepted requests, each at most once (around a reset edge, logs 5 and 6). -/
def Obligations.DeliveredResponsesAnswerASublistOfTheRequests : Prop :=
  ∀ (t : Timing) (s : State) (n : Nat), s.inFlight = [] →
    ∃ s' ps qs, runCycles t n s = .next s' ∧ s'.responses = s.responses ++ ps ∧
      List.Sublist qs (acceptedRequests t s.inputs) ∧ List.Forall₂ Answers qs ps

/-- 60_exceptions.md R160, R161: a run in which every presented request has an assigned code delivers no
response with `err` = 1. -/
def Obligations.AssignedCodesGiveAnErrFreeRun : Prop :=
  ∀ (t : Timing) (s : State) (n : Nat), s.inFlight = [] → ErrFree s → AllAssigned s.inputs →
    ∃ s', runCycles t n s = .next s' ∧ ErrFree s'

/-- 00_scope.md R10, 20_memory.md R46: what the block answers to a request with an assigned code depends
on that request alone: two runs with the same request accepted `LATENCY` cycles before, not cut off,
show the same response, whatever else was presented in either (around a reset edge, logs 5 and 6). -/
def Obligations.ResponseDependsOnItsOwnRequestOnly : Prop :=
  ∀ (t : Timing) (s1 s2 : State) (n1 n2 : Nat), s1.inFlight = [] → s2.inFlight = [] →
    t.latency ≤ n1 → t.latency ≤ n2 →
    acceptsOn t (inputAt s1.inputs (n1 - t.latency)) = true →
    acceptsOn t (inputAt s2.inputs (n2 - t.latency)) = true →
    (inputAt s1.inputs (n1 - t.latency)).request = (inputAt s2.inputs (n2 - t.latency)).request →
    (inputAt s1.inputs (n1 - t.latency)).request.assigned = true →
    ¬ resetBetween t s1.inputs (n1 - t.latency) n1 → ¬ resetBetween t s2.inputs (n2 - t.latency) n2 →
    ∃ s1' s2' p, runCycles t (n1 + 1) s1 = .next s1' ∧ runCycles t (n2 + 1) s2 = .next s2' ∧
      s1'.rsp = some p ∧ s2'.rsp = some p ∧ p.err = false

/-- 70_reset_and_hazards.md R180: a block that is never reset computes correctly from the first request;
only the first `LATENCY` cycles can differ from those of a block that was reset (log 10). What is drawn
for the `result` of an `IllegalOp` response is not compared, and the draws of the two may differ. -/
def Obligations.NeverResetBlockAgreesAfterLatencyCycles : Prop :=
  ∀ (t : Timing) (ins : List PortInput) (d n : Nat), t.latency ≤ n →
    ∃ a b, runCycles t (n + 1) { State.powerUp t with inputs := ins } = .next a ∧
      runCycles t (n + 1) { State.reset with inputs := ins, draws := d } = .next b ∧
      a.rsp.map visible = b.rsp.map visible ∧
      a.inFlight.map (fun e => (visible e.rsp, e.age)) = b.inFlight.map (fun e => (visible e.rsp, e.age))

/-- Running the host's machine for `n` steps is `n` clock cycles with the implementation's timing
(log 2). -/
def Obligations.HostRunIsARunOfCycles : Prop :=
  ∀ (n : Nat) (s : State), Sys2Proof.core.run n s = runCycles Config.timing n s

/-- 10_state.md R33, 70_reset_and_hazards.md R181: after reset `rsp_valid` is 0 and nothing is in
flight, and it stays 0 until the first response of a request accepted after the reset: a schedule that
presents no request never shows one. -/
def Obligations.NoResponseWithoutARequestAfterReset : Prop :=
  State.reset.rspValidPort = false ∧ State.reset.inFlight = [] ∧
  ∀ (t : Timing) (ins : List PortInput) (n : Nat), (∀ p ∈ ins, p.reqValid = false) →
    ∃ s', runCycles t n { State.reset with inputs := ins } = .next s' ∧
      s'.rspValidPort = false ∧ s'.responses = []
end

