-- ==== Sys2Proof/Laws/State.lean ====
section
/-! SUPPORT. One lemma per field of State per update, true by rfl, so that no proof unfolds a record
update. -/

namespace Sys2Proof.Machine

section accept
variable (s : State) (p : Response)
@[simp] theorem State.accept_inputs : (s.accept p).inputs = s.inputs := rfl
@[simp] theorem State.accept_inFlight : (s.accept p).inFlight = s.inFlight ++ [⟨p, 0⟩] := rfl
@[simp] theorem State.accept_rsp : (s.accept p).rsp = s.rsp := rfl
@[simp] theorem State.accept_responses : (s.accept p).responses = s.responses := rfl
@[simp] theorem State.accept_draws : (s.accept p).draws = s.draws := rfl
@[simp] theorem State.accept_input : (s.accept p).input = s.input := rfl
end accept

section complete
variable (s : State) (result : Word)
@[simp] theorem State.complete_inputs : (s.complete result).inputs = s.inputs := rfl
@[simp] theorem State.complete_inFlight :
    (s.complete result).inFlight = s.inFlight ++ [⟨⟨false, result⟩, 0⟩] := rfl
@[simp] theorem State.complete_rsp : (s.complete result).rsp = s.rsp := rfl
@[simp] theorem State.complete_responses : (s.complete result).responses = s.responses := rfl
@[simp] theorem State.complete_draws : (s.complete result).draws = s.draws := rfl
@[simp] theorem State.complete_input : (s.complete result).input = s.input := rfl
end complete

section raiseIllegalOp
variable (s : State)
@[simp] theorem State.raiseIllegalOp_inputs : s.raiseIllegalOp.inputs = s.inputs := rfl
@[simp] theorem State.raiseIllegalOp_inFlight :
    s.raiseIllegalOp.inFlight = s.inFlight ++ [⟨⟨true, Config.unspecifiedResult s.draws⟩, 0⟩] := rfl
@[simp] theorem State.raiseIllegalOp_rsp : s.raiseIllegalOp.rsp = s.rsp := rfl
@[simp] theorem State.raiseIllegalOp_responses : s.raiseIllegalOp.responses = s.responses := rfl
@[simp] theorem State.raiseIllegalOp_draws : s.raiseIllegalOp.draws = s.draws := rfl
@[simp] theorem State.raiseIllegalOp_input : s.raiseIllegalOp.input = s.input := rfl
end raiseIllegalOp

section present
variable (latency : Nat) (s : State)
@[simp] theorem State.present_inputs : (s.present latency).inputs = s.inputs := rfl
@[simp] theorem State.present_inFlight :
    (s.present latency).inFlight = ageAll (afterDue latency s.inFlight) := rfl
@[simp] theorem State.present_rsp : (s.present latency).rsp = dueResponse latency s.inFlight := rfl
@[simp] theorem State.present_responses :
    (s.present latency).responses = s.responses ++ (dueResponse latency s.inFlight).toList := rfl
@[simp] theorem State.present_draws : (s.present latency).draws = s.draws := rfl
end present

section discard
variable (s : State)
@[simp] theorem State.discard_inputs : s.discard.inputs = s.inputs := rfl
@[simp] theorem State.discard_inFlight : s.discard.inFlight = [] := rfl
@[simp] theorem State.discard_rsp : s.discard.rsp = s.rsp := rfl
@[simp] theorem State.discard_responses : s.discard.responses = s.responses := rfl
@[simp] theorem State.discard_draws : s.discard.draws = s.draws := rfl
end discard

section closeCycle
variable (t : Timing) (s : State)
@[simp] theorem State.closeCycle_inputs : (s.closeCycle t).inputs = s.inputs.tail := rfl
@[simp] theorem State.closeCycle_draws : (s.closeCycle t).draws = s.draws + 1 := rfl
@[simp] theorem State.closeCycle_rsp : (s.closeCycle t).rsp = dueResponse t.latency s.inFlight := by
  unfold State.closeCycle; split <;> rfl
@[simp] theorem State.closeCycle_responses :
    (s.closeCycle t).responses = s.responses ++ (dueResponse t.latency s.inFlight).toList := by
  unfold State.closeCycle; split <;> rfl
@[simp] theorem State.closeCycle_inFlight :
    (s.closeCycle t).inFlight =
      if resetsOn t s.input then [] else ageAll (afterDue t.latency s.inFlight) := by
  unfold State.closeCycle; split <;> rfl
end closeCycle

section presentWord
variable (s : State) (w : BitVec 164)
@[simp] theorem State.presentWord_inputs :
    (s.presentWord w).inputs = ⟨false, true, Request.unpack w⟩ :: s.inputs.tail := rfl
@[simp] theorem State.presentWord_input :
    (s.presentWord w).input = ⟨false, true, Request.unpack w⟩ := rfl
@[simp] theorem State.presentWord_inFlight : (s.presentWord w).inFlight = s.inFlight := rfl
@[simp] theorem State.presentWord_rsp : (s.presentWord w).rsp = s.rsp := rfl
@[simp] theorem State.presentWord_responses : (s.presentWord w).responses = s.responses := rfl
@[simp] theorem State.presentWord_draws : (s.presentWord w).draws = s.draws := rfl
end presentWord

section reset
@[simp] theorem State.reset_inputs : State.reset.inputs = [] := rfl
@[simp] theorem State.reset_inFlight : State.reset.inFlight = [] := rfl
@[simp] theorem State.reset_rsp : State.reset.rsp = none := rfl
@[simp] theorem State.reset_responses : State.reset.responses = [] := rfl
@[simp] theorem State.reset_draws : State.reset.draws = 0 := rfl
@[simp] theorem State.powerUp_inFlight (t : Timing) :
    (State.powerUp t).inFlight = powerUpPipe t.latency := rfl
end reset

/-- A state is its five fields. -/
theorem State.ext_fields {a b : State} (h1 : a.inputs = b.inputs) (h2 : a.inFlight = b.inFlight)
    (h3 : a.rsp = b.rsp) (h4 : a.responses = b.responses) (h5 : a.draws = b.draws) : a = b := by
  cases a; cases b; simp_all

end Sys2Proof.Machine
end

