-- ==== Sys2Proof/Laws/Ops.lean ====
section
/-! SUPPORT. For each shared operation, what it can do, said once: the response channel, a cycle, and
the one thing every meaning does. -/

namespace Sys2Proof.Machine

@[simp] theorem dueResponse_nil (L : Nat) : dueResponse L [] = none := rfl
@[simp] theorem afterDue_nil (L : Nat) : afterDue L [] = [] := rfl
@[simp] theorem ageAll_nil : ageAll [] = [] := rfl
@[simp] theorem ageAll_length (es : List InFlight) : (ageAll es).length = es.length := by
  simp [ageAll]

/-- A response is due exactly when the oldest request is `latency` cycles old, and it is that one. -/
theorem dueResponse_eq_some {L : Nat} {es : List InFlight} {p : Response} :
    dueResponse L es = some p ↔ ∃ e rest, es = e :: rest ∧ L ≤ e.age ∧ p = e.rsp := by
  cases es with
  | nil => simp
  | cons e rest =>
    by_cases h : L ≤ e.age
    · simp [dueResponse, h, eq_comm]
    · simp only [dueResponse, h, if_false]
      constructor
      · intro h'; cases h'
      · rintro ⟨e', rest', he, hl, -⟩
        cases he
        exact absurd hl h

/-- What is due and what stays behind make up the pipeline. -/
theorem due_append_after (L : Nat) (es : List InFlight) :
    es.map InFlight.rsp = (dueResponse L es).toList ++ (afterDue L es).map InFlight.rsp := by
  cases es with
  | nil => rfl
  | cons e rest => by_cases h : L ≤ e.age <;> simp [dueResponse, afterDue, h]

/-- Nothing that was not in flight stays in flight. -/
theorem afterDue_sublist (L : Nat) (es : List InFlight) : (afterDue L es).Sublist es := by
  cases es with
  | nil => simp
  | cons e rest =>
    by_cases h : L ≤ e.age
    · simp [afterDue, h]
    · simp [afterDue, h]

/-- Without `rst` there is no reset edge. -/
theorem resetsOn_of_rst_false {t : Timing} {p : PortInput} (h : p.rst = false) :
    resetsOn t p = false := by simp [resetsOn, h]

/-- A reset edge accepts nothing. -/
theorem acceptsOn_of_resetsOn {t : Timing} {p : PortInput} (h : resetsOn t p = true) :
    acceptsOn t p = false := by simp [acceptsOn, h]

/-- Every meaning does one thing: it completes with some result. -/
theorem exec_completes (i : Instr) (s : State) :
    exec i s = .next (s.complete (match i with
      | .noiseU1D x seed => noiseUint1D x seed
      | .noiseU2D x y seed => noiseUint2D x y seed
      | .noiseU3D x y z seed => noiseUint3D x y z seed
      | .noiseU4D x y z t seed => noiseUint4D x y z t seed
      | .noiseZ1D x seed => zmap (noiseUint1D x seed)
      | .noiseZ2D x y seed => zmap (noiseUint2D x y seed)
      | .noiseZ3D x y z seed => zmap (noiseUint3D x y z seed)
      | .noiseZ4D x y z t seed => zmap (noiseUint4D x y z t seed)
      | .noiseN1D x seed => nmap (noiseUint1D x seed)
      | .noiseN2D x y seed => nmap (noiseUint2D x y seed)
      | .noiseN3D x y z seed => nmap (noiseUint3D x y z seed)
      | .noiseN4D x y z t seed => nmap (noiseUint4D x y z t seed)
      | .scramble position seed => scramble position seed)) := by
  cases i <;> rfl

/-- A cycle that accepts no request. -/
theorem clockCycle_of_not_accepts {t : Timing} {s : State} (h : acceptsOn t s.input = false) :
    clockCycle t s = .next (s.closeCycle t) := by simp [clockCycle, h]

/-- What a cycle can do: it takes in one response, or it takes in none; then it closes. -/
theorem clockCycle_cases {t : Timing} {s s' : State} (h : clockCycle t s = .next s') :
    (acceptsOn t s.input = true ∧ ∃ p, s' = (s.accept p).closeCycle t) ∨
    (acceptsOn t s.input = false ∧ s' = s.closeCycle t) := by
  unfold clockCycle at h
  split at h
  · rename_i ha
    refine .inl ⟨ha, ?_⟩
    split at h
    · rw [exec_completes] at h
      cases h
      exact ⟨_, rfl⟩
    · cases h
      exact ⟨_, rfl⟩
  · rename_i ha
    cases h
    exact .inr ⟨by simpa using ha, rfl⟩

/-- A cycle does not answer a fault: there is none. -/
theorem clockCycle_not_fault (t : Timing) (s : State) (f : Fault) : clockCycle t s ≠ .fault f := nomatch f

@[simp] theorem runCycles_zero (t : Timing) (s : State) : runCycles t 0 s = .next s := rfl

/-- One more cycle at the front of a run. -/
theorem runCycles_succ_of_next {t : Timing} {s s' : State} (n : Nat) (h : clockCycle t s = .next s') :
    runCycles t (n + 1) s = runCycles t n s' := by simp [runCycles, h]

end Sys2Proof.Machine
end

