-- ==== Sys2Proof/Laws/PerInstr.lean ====
section
/-! SUPPORT. One family of facts about every instruction as syntax: its encoding has an assigned code
and the canonical form, every field it does not read zero (30_encoding.md R60, R62, R66). -/

namespace Sys2Proof.Laws.EncodeCanonical

open Sys2Proof.Machine

/-- The canonical-form statement of one instruction. -/
def Statement (i : Instr) : Prop :=
  (encodeRequest i).assigned = true ∧ canonicalRequest (encodeRequest i) = encodeRequest i

/-- A request whose unread coordinates are zero is in canonical form. -/
theorem canonical_of_zeros {q : Request} (hy : readsY q.op = true ∨ q.y = 0)
    (hz : readsZ q.op = true ∨ q.z = 0) (ht : readsT q.op = true ∨ q.t = 0) :
    canonicalRequest q = q := by
  cases q
  simp only [canonicalRequest, Request.mk.injEq, true_and, and_true]
  refine ⟨?_, ?_, ?_⟩ <;> split <;> simp_all

theorem noiseU1D (x seed : Word) : Statement (.noiseU1D x seed) :=
  ⟨rfl, canonical_of_zeros (.inr rfl) (.inr rfl) (.inr rfl)⟩
theorem noiseU2D (x y seed : Word) : Statement (.noiseU2D x y seed) :=
  ⟨rfl, canonical_of_zeros (.inl (by decide : readsY 0x1#4 = true))
    (.inr rfl)
    (.inr rfl)⟩
theorem noiseU3D (x y z seed : Word) : Statement (.noiseU3D x y z seed) :=
  ⟨rfl, canonical_of_zeros (.inl (by decide : readsY 0x2#4 = true))
    (.inl (by decide : readsZ 0x2#4 = true))
    (.inr rfl)⟩
theorem noiseU4D (x y z t seed : Word) : Statement (.noiseU4D x y z t seed) :=
  ⟨rfl, canonical_of_zeros (.inl (by decide : readsY 0x3#4 = true))
    (.inl (by decide : readsZ 0x3#4 = true))
    (.inl (by decide : readsT 0x3#4 = true))⟩
theorem noiseZ1D (x seed : Word) : Statement (.noiseZ1D x seed) :=
  ⟨rfl, canonical_of_zeros (.inr rfl) (.inr rfl) (.inr rfl)⟩
theorem noiseZ2D (x y seed : Word) : Statement (.noiseZ2D x y seed) :=
  ⟨rfl, canonical_of_zeros (.inl (by decide : readsY 0x5#4 = true))
    (.inr rfl)
    (.inr rfl)⟩
theorem noiseZ3D (x y z seed : Word) : Statement (.noiseZ3D x y z seed) :=
  ⟨rfl, canonical_of_zeros (.inl (by decide : readsY 0x6#4 = true))
    (.inl (by decide : readsZ 0x6#4 = true))
    (.inr rfl)⟩
theorem noiseZ4D (x y z t seed : Word) : Statement (.noiseZ4D x y z t seed) :=
  ⟨rfl, canonical_of_zeros (.inl (by decide : readsY 0x7#4 = true))
    (.inl (by decide : readsZ 0x7#4 = true))
    (.inl (by decide : readsT 0x7#4 = true))⟩
theorem noiseN1D (x seed : Word) : Statement (.noiseN1D x seed) :=
  ⟨rfl, canonical_of_zeros (.inr rfl) (.inr rfl) (.inr rfl)⟩
theorem noiseN2D (x y seed : Word) : Statement (.noiseN2D x y seed) :=
  ⟨rfl, canonical_of_zeros (.inl (by decide : readsY 0x9#4 = true))
    (.inr rfl)
    (.inr rfl)⟩
theorem noiseN3D (x y z seed : Word) : Statement (.noiseN3D x y z seed) :=
  ⟨rfl, canonical_of_zeros (.inl (by decide : readsY 0xA#4 = true))
    (.inl (by decide : readsZ 0xA#4 = true))
    (.inr rfl)⟩
theorem noiseN4D (x y z t seed : Word) : Statement (.noiseN4D x y z t seed) :=
  ⟨rfl, canonical_of_zeros (.inl (by decide : readsY 0xB#4 = true))
    (.inl (by decide : readsZ 0xB#4 = true))
    (.inl (by decide : readsT 0xB#4 = true))⟩
theorem scramble (position seed : Word) : Statement (.scramble position seed) :=
  ⟨rfl, canonical_of_zeros (.inr rfl) (.inr rfl) (.inr rfl)⟩

end Sys2Proof.Laws.EncodeCanonical
end

