-- ==== Sys2Proof/Tests/Slice0.lean ====
section
/-! SUPPORT. Tests. Every expected value is a worked example or a vector of the spec (the rule or section
is named beside it), never the model's own answer; the last section shows, for each statement with
hypotheses, values that meet them. -/

namespace Sys2Proof.Tests

open Sys2Proof.Machine

/-! ## Helpers -/

/-- The responses in flight after a meaning ran on the reset state. -/
def answered (o : Host.Outcome State Fault Refusal) : List InFlight :=
  match o with
  | .next s => s.inFlight
  | .fault _ => []
  | .refused _ => []

/-- The responses delivered by a run. -/
def delivered (o : Host.Outcome State Fault Refusal) : List Response :=
  match o with
  | .next s => s.responses
  | .fault _ => []
  | .refused _ => []

/-- The response channel after a run. -/
def shown (o : Host.Outcome State Fault Refusal) : Option Response :=
  match o with
  | .next s => s.rsp
  | .fault _ => none
  | .refused _ => none

/-- A cycle that presents a packed request. -/
def present (w : BitVec 164) : PortInput := ⟨false, true, Request.unpack w⟩

/-- A cycle that asserts `rst` while presenting a packed request. -/
def presentInReset (w : BitVec 164) : PortInput := ⟨true, true, Request.unpack w⟩

/-- The reset state with a schedule of inputs. -/
def scheduled (ins : List PortInput) : State := { State.reset with inputs := ins }

/-- An operation answers a value with `err` = 0. -/
def answersValue (i : Instr) (v : Word) : Bool := answered (exec i State.reset) == [⟨⟨false, v⟩, 0⟩]

/-! ## Decoding: words of 95_test_vectors.md sections 2.5 and 2.6, written out from R55 and R58 -/

theorem test_decode_noiseU1D :
    decodeTableWord 164 0x0FFFFFFFF00000000000000000000000000000001 = some (.noiseU1D 1 0xFFFFFFFF) := by decide

theorem test_decode_noiseU2D :
    decodeTableWord 164 0x1000000000000000000000000FFFFFFFE00000003 = some (.noiseU2D 3 0xFFFFFFFE 0) := by decide

theorem test_decode_noiseU3D :
    decodeTableWord 164 0x20000000000000000FFFFFFF500000007FFFFFFFB = some (.noiseU3D 0xFFFFFFFB 7 0xFFFFFFF5 0) := by decide

theorem test_decode_noiseU4D :
    decodeTableWord 164 0x3FFFFFFFFFFFFFE700000012CFFFFFF3800000064 = some (.noiseU4D 100 0xFFFFFF38 300 0xFFFFFE70 0xFFFFFFFF) := by decide

theorem test_decode_noiseZ1D :
    decodeTableWord 164 0x40000000033333333222222221111111100000007 = some (.noiseZ1D 7 0) := by decide

theorem test_decode_noiseZ2D :
    decodeTableWord 164 0x50000000033333333222222221111111100000007 = some (.noiseZ2D 7 0x11111111 0) := by decide

theorem test_decode_noiseZ3D :
    decodeTableWord 164 0x6FFFFFFFF00000000000000030000000200000001 = some (.noiseZ3D 1 2 3 0xFFFFFFFF) := by decide

theorem test_decode_noiseZ4D :
    decodeTableWord 164 0x7DEADBEEF00000004000000030000000200000001 = some (.noiseZ4D 1 2 3 4 0xDEADBEEF) := by decide

theorem test_decode_noiseN1D :
    decodeTableWord 164 0x80000000033333333222222221111111100000007 = some (.noiseN1D 7 0) := by decide

theorem test_decode_noiseN2D :
    decodeTableWord 164 0x90000000000000000000000007FFFFFFF80000000 = some (.noiseN2D 0x80000000 0x7FFFFFFF 0) := by decide

theorem test_decode_noiseN3D :
    decodeTableWord 164 0xA0000000033333333222222221111111100000007 = some (.noiseN3D 7 0x11111111 0x22222222 0) := by decide

theorem test_decode_noiseN4D :
    decodeTableWord 164 0xBDEADBEEF00000004000000030000000200000001 = some (.noiseN4D 1 2 3 4 0xDEADBEEF) := by decide

theorem test_decode_scramble :
    decodeTableWord 164 0xCDEADBEEF000000000000000000000000075BCD15 = some (.scramble 123456789 0xDEADBEEF) := by decide

theorem test_decode_reserved_D :
    decodeWord 0xDDEADBEEF33333333222222221111111100000007#164 = .error (.reservedCode 0xD) := by decide

theorem test_decode_reserved_E :
    decodeWord 0xEDEADBEEF33333333222222221111111100000007#164 = .error (.reservedCode 0xE) := by decide

theorem test_decode_reserved_F :
    decodeWord 0xFDEADBEEF33333333222222221111111100000007#164 = .error (.reservedCode 0xF) := by decide

/-- The table's own width, and the same in whole bytes. -/
theorem test_decode_whole_bytes :
    decodeTableWord 168 0xC0000000000000000000000000000000000000001 = some (.scramble 1 0) := by decide

/-- P3, request 1 of 95_test_vectors.md section 3. -/
theorem test_encode_noiseU2D :
    encode (.noiseU2D 0x7FFFFFFF 0x7FFFFFFF 0) = 0x10000000000000000000000007FFFFFFF7FFFFFFF#164 := by decide

/-- P2, request 2 of 95_test_vectors.md section 3. -/
theorem test_encode_scramble : encode (.scramble 5 1) = 0xC0000000100000000000000000000000000000005#164 := by decide

/-- `0_16791E00` of 30_encoding.md R56. -/
theorem test_response_pack : Response.pack ⟨false, 0x16791E00⟩ = 0x016791E00#33 := by decide

/-! ## Well-formedness: each check refuses an ill-formed term -/

theorem test_assigned_refuses_D : Request.assigned ⟨0xD, 0, 0, 0, 0, 0⟩ = false := by decide
theorem test_assigned_refuses_F : Request.assigned ⟨0xF, 0, 0, 0, 0, 0⟩ = false := by decide
theorem test_assigned_takes_C : Request.assigned ⟨0xC, 0, 0, 0, 0, 0⟩ = true := by decide
theorem test_line_refuses_unknown_name :
    AsmLine.wellFormed (.request "ROTATE" [.dec 1] (.dec 0)) = false := by decide
theorem test_line_refuses_missing_coordinate :
    AsmLine.wellFormed (.request "NOISE_U2D" [.dec 1] (.dec 0)) = false := by decide
theorem test_line_refuses_large_decimal :
    AsmLine.wellFormed (.request "SCRAMBLE" [.dec 2147483648] (.dec 0)) = false := by decide
theorem test_line_refuses_small_decimal :
    AsmLine.wellFormed (.request "SCRAMBLE" [.dec (-2147483649)] (.dec 0)) = false := by decide
theorem test_line_refuses_large_hex :
    AsmLine.wellFormed (.request "SCRAMBLE" [.hex 0x100000000] (.dec 0)) = false := by decide
theorem test_line_refuses_negative_seed :
    AsmLine.wellFormed (.request "SCRAMBLE" [.dec 1] (.dec (-1))) = false := by decide
theorem test_line_refuses_large_seed :
    AsmLine.wellFormed (.request "SCRAMBLE" [.dec 1] (.dec 4294967296)) = false := by decide
theorem test_line_refuses_large_hex_seed :
    AsmLine.wellFormed (.request "SCRAMBLE" [.dec 1] (.hex 0x100000000)) = false := by decide
theorem test_line_refuses_named_seed :
    AsmLine.wellFormed (.request "SCRAMBLE" [.dec 1] .int32Min) = false := by decide
theorem test_line_refuses_named_max_seed :
    AsmLine.wellFormed (.request "SCRAMBLE" [.dec 1] .int32Max) = false := by decide
theorem test_line_refuses_reserved_name : AsmLine.wellFormed (.reserved "OP_0xC") = false := by decide
theorem test_line_takes_bounds :
    AsmLine.wellFormed (.request "noiseUint3D" [.int32Min, .dec 2147483647, .hex 0xFFFFFFFF]
      (.dec 4294967295)) = true := by decide

/-! ## The assembler: lines of 30_encoding.md R66 and 95_test_vectors.md section 2 -/

theorem test_assemble_text :
    assembleText "NOISE_U2D 3, -2 ; seed=0xFFFFFFFF".toList =
      .ok (Request.unpack 0x1FFFFFFFF0000000000000000FFFFFFFE00000003#164) := by decide
theorem test_assemble_names :
    assembleText "NOISE_N3D INT32_MAX, INT32_MIN, 0x0000002A ; seed=42".toList =
      .ok (Request.unpack 0xA0000002A000000000000002A800000007FFFFFFF#164) := by decide
theorem test_assemble_reserved :
    assembleText "OP_0xE".toList = .ok (Request.unpack 0xE0000000000000000000000000000000000000000#164) := by decide
theorem test_assemble_never_wraps :
    assembleText "SCRAMBLE 4294967296 ; seed=0".toList = .error .coordOutOfRange := by decide
theorem test_assemble_refuses_two_seeds :
    assembleText "SCRAMBLE 1 ; seed=0 ; seed=1".toList = .error .unreadable := by decide
/-- The choices of log 14: no expected response on the line, no plus sign, no underscore between digits,
and `-0` is a seed. -/
theorem test_assemble_choices :
    assembleText "SCRAMBLE 1 ; seed=0 => 0_C895CB1D".toList = .error .unreadable ∧
    assembleText "SCRAMBLE +1 ; seed=0".toList = .error .unreadable ∧
    assembleText "SCRAMBLE 1 ; seed=0xDEAD_BEEF".toList = .error .unreadable ∧
    assembleText "SCRAMBLE 1 ; seed=-0".toList = .ok ⟨0xC, 0, 0, 0, 0, 1⟩ := by decide
theorem test_request_text :
    requestText (encodeRequest (.noiseU2D 3 0xFFFFFFFE 0)) =
      "1_00000000_00000000_00000000_FFFFFFFE_00000003".toList := by decide
theorem test_response_text : responseText ⟨false, 0x16791E00⟩ = "0_16791E00".toList := by decide

/-! ## Meanings: the worked examples of the rules, and vectors of 95_test_vectors.md section 2.5 -/

/-- R89. -/
theorem test_exec_scramble_one : answersValue (.scramble 1 0) 0xC895CB1D = true := by decide

/-- section 2.1. -/
theorem test_exec_scramble_min_wraps : answersValue (.scramble 0x80000000 0xFFFFFFFF) 0x26D9E0C1 = true := by decide

/-- section 2.5. -/
theorem test_exec_noiseU1D : answersValue (.noiseU1D 0xFFFFFFFF 0) 0xFAF16D54 = true := by decide

/-- R108. -/
theorem test_exec_noiseU2D : answersValue (.noiseU2D 3 0xFFFFFFFE 0) 0xAC477F40 = true := by decide

/-- R108, S7. -/
theorem test_exec_noiseU2D_overflow : answersValue (.noiseU2D 0x7FFFFFFF 0x7FFFFFFF 0) 0x503F52DE = true := by decide

/-- section 2.5. -/
theorem test_exec_noiseU3D : answersValue (.noiseU3D 0xFFFFFFFB 7 0xFFFFFFF5 0xFFFFFFFF) 0xF20C4BCC = true := by decide

/-- section 2.5. -/
theorem test_exec_noiseU4D : answersValue (.noiseU4D 100 0xFFFFFF38 300 0xFFFFFE70 0) 0x4B8E13EF = true := by decide

/-- R133. -/
theorem test_exec_noiseZ1D : answersValue (.noiseZ1D 0 0) 0x3DB3C8F0 = true := by decide

/-- R134. -/
theorem test_exec_noiseZ2D : answersValue (.noiseZ2D 0x7FFFFFFF 0x7FFFFFFF 0) 0x3EA07EA6 = true := by decide

/-- R135. -/
theorem test_exec_noiseZ3D : answersValue (.noiseZ3D 1 2 3 0) 0x3F02F8C1 = true := by decide

/-- R136. -/
theorem test_exec_noiseZ4D : answersValue (.noiseZ4D 1 2 3 4 0xDEADBEEF) 0x3F7F6DFD = true := by decide

/-- R137. -/
theorem test_exec_noiseN1D : answersValue (.noiseN1D 1 0) 0xBEDDA8D4 = true := by decide

/-- R138. -/
theorem test_exec_noiseN2D : answersValue (.noiseN2D 0x7FFFFFFF 0x7FFFFFFF 0) 0x3F207EA6 = true := by decide

/-- R139. -/
theorem test_exec_noiseN3D : answersValue (.noiseN3D 1 2 3 0) 0xBF7A0E7D = true := by decide

/-- R140. -/
theorem test_exec_noiseN4D : answersValue (.noiseN4D 1 2 3 4 0xDEADBEEF) 0xBB920308 = true := by decide

/-! ## The scaler: corner rows of 95_test_vectors.md section 2.4 -/

theorem test_zmap_double_rounding :
    zmap 0xFFFFFD7F = 0x3F7FFFFE#32 ∧ zmap 0xFFFFFF7F = 0x3F800000#32 ∧
    nmap 0x7FFFFFBF = 0x3F800000#32 ∧ nmap 0x80000041 = 0xBF800000#32 := by decide

theorem test_scaler_ends :
    zmap 0 = 0#32 ∧ zmap 1 = 0x2F800000#32 ∧ zmap 0xFFFFFF7E = 0x3F7FFFFF#32 ∧
    nmap 1 = 0x30000000#32 ∧ nmap 0xFFFFFFFF = 0xB0000000#32 ∧ nmap 0x7FFFFFBE = 0x3F7FFFFF#32 ∧
    nmap 0x80000042 = 0xBF7FFFFF#32 ∧ nmap 0x80000000 = 0xBF800000#32 := by decide

/-- The binary64 patterns of the intermediate products. -/
theorem test_double_patterns :
    enc64Int false (zmapProduct 0x16791E00) 64 = 0x3FB6791E0016791E#64 ∧
    enc64Int true (nmapProduct 0xC895CB1D) 62 = 0xBFDBB51A71B76A35#64 ∧
    enc64Int true (nmapProduct 0x80000000) 62 = 0xBFF0000000200000#64 := by decide

/-! ## Cycles (70_reset_and_hazards.md R180, R186, R188; programs P4 and P5) -/

/-- `LATENCY` = 0: the response comes in the request's own cycle. -/
theorem test_combinational :
    shown (clockCycle ⟨0, true⟩ (scheduled [present 0xC0000000000000000000000000000000000000001#164])) = some ⟨false, 0xC895CB1D⟩ := by decide

/-- `LATENCY` = 2: nothing after two cycles, the response after the third. -/
theorem test_latency_two :
    shown (runCycles ⟨2, true⟩ 2 (scheduled [present 0xC0000000000000000000000000000000000000001#164])) = none ∧
    shown (runCycles ⟨2, true⟩ 3 (scheduled [present 0xC0000000000000000000000000000000000000001#164])) = some ⟨false, 0xC895CB1D⟩ ∧
    shown (runCycles ⟨2, true⟩ 4 (scheduled [present 0xC0000000000000000000000000000000000000001#164])) = none := by decide

/-- A reset edge cuts off a request in flight, and accepts none itself. -/
theorem test_reset_cuts_off :
    delivered (runCycles ⟨2, true⟩ 6 (scheduled [present 0xC0000000000000000000000000000000000000001#164, presentInReset 0xC0000000000000000000000000000000000000001#164])) = [] := by decide

/-- `LATENCY` = 1: a reset edge in the cycle that shows the response is too late to cut it off. -/
theorem test_reset_too_late :
    delivered (runCycles ⟨1, true⟩ 6 (scheduled [present 0xC0000000000000000000000000000000000000001#164, presentInReset 0xC0000000000000000000000000000000000000001#164])) =
      [⟨false, 0xC895CB1D⟩] := by decide

/-- P4: a reserved code is answered with `err` = 1 between two equal responses. -/
theorem test_reserved_between :
    (delivered (runCycles ⟨1, true⟩ 4 (scheduled [present 0xC0000000000000000000000000000000000000001#164, present 0xD0000000000000000000000000000000000000001#164, present 0xC0000000000000000000000000000000000000001#164]))).map
      Response.err = [false, true, false] := by decide

/-- A request presented with `req_valid` = 0 is not accepted. -/
theorem test_not_valid_not_accepted :
    delivered (runCycles ⟨0, true⟩ 2 (scheduled [⟨false, false, Request.unpack 0xC0000000000000000000000000000000000000001#164⟩])) = [] := by decide

/-- The step runs the fetched request as the first one after reset. -/
theorem test_step_runs_fetched_word :
    step (State.reset.withFetchWord 164 0xC0000000000000000000000000000000000000001) =
      .next (((State.reset.withFetchWord 164 0xC0000000000000000000000000000000000000001).complete 0xC895CB1D).closeCycle Config.timing) := by
  rfl


/-! ## Every hypothesis of a statement is met by some value -/

theorem test_meets_EncodeOfDecodeIsTheCanonicalWord :
    decodeWord 0x00000000033333333222222221111111100000007#164 = .ok (.noiseU1D 7 0) := by decide

theorem test_meets_MaskAndMatchSelectTheOperation :
    (0x00000000033333333222222221111111100000007#164 &&& 0xF0000000000000000000000000000000000000000#164
      = BitVec.setWidth 164 0x0#4 <<< 160 ∧ (0x0#4).toNat < 13) ∧
    (0xC0000000000000000000000000000000000000001#164 &&& 0xF0000000000000000000000000000000000000000#164
      = BitVec.setWidth 164 0xC#4 <<< 160 ∧ (0xC#4).toNat < 13) ∧
    (0xD0000000000000000000000000000000000000001#164 &&& 0xF0000000000000000000000000000000000000000#164
      = BitVec.setWidth 164 0xD#4 <<< 160 ∧ ¬ (0xD#4).toNat < 13) := by decide

theorem test_meets_UnreadFieldsAreIgnored : errOfCode 0xD = true ∧ errOfCode 0xF = true := by decide

theorem test_meets_AssemblerTakesExactlyTheWellFormedLines :
    AsmLine.wellFormed (.request "NOISE_N4D" [.dec 1, .dec 2, .dec 3, .int32Max] (.hex 5)) = true ∧
    AsmLine.wellFormed (.reserved "OP_0xF") = true ∧
    AsmLine.wellFormed (.reserved "SCRAMBLE") = false := by decide

/-- Every form of a coordinate and of a seed, at the bounds of its range, and one to four coordinates. -/
theorem test_meets_AssembledLineHasItsOperationAndValues :
    (AsmLine.request "SCRAMBLE" [.dec (-2147483648)] (.dec 0)).wellFormed = true ∧
    (AsmLine.request "noiseUint2D" [.dec 2147483647, .hex 0] (.dec 4294967295)).wellFormed = true ∧
    (AsmLine.request "NOISE_Z3D" [.hex 0xFFFFFFFF, .int32Min, .int32Max] (.hex 0)).wellFormed = true ∧
    (AsmLine.request "NOISE_N4D" [.dec 1, .dec 2, .dec 3, .int32Max] (.hex 0xFFFFFFFF)).wellFormed
      = true := by decide

theorem test_meets_DecodeThenExecIsRespond :
    errOfCode 0x0 = false ∧ errOfCode 0xC = false ∧ errOfCode 0xD = true := by decide

theorem test_meets_ErrExactlyForReservedCodes :
    (Request.op ⟨0xC, 0, 0, 0, 0, 0⟩).toNat < 13 ∧ 13 ≤ (Request.op ⟨0xD, 0, 0, 0, 0, 0⟩).toNat := by decide

/-- Both clauses at the bounds of the shift amount, and at the bit where they meet. -/
theorem test_meets_ShiftXorBitByBit :
    (0 < 1 ∧ 1 < 32 ∧ 31 < 32 ∧ 32 - 1 ≤ 31) ∧ (0 < 1 ∧ 1 < 32 ∧ 30 < 32 ∧ ¬ 32 - 1 ≤ 30) ∧
    (0 < 31 ∧ 31 < 32 ∧ 1 < 32 ∧ 32 - 31 ≤ 1) ∧ (0 < 31 ∧ 31 < 32 ∧ 0 < 32 ∧ ¬ 32 - 31 ≤ 0) := by decide

theorem test_meets_ShiftXorIsABijection : (0 < 1 ∧ 1 < 32) ∧ (0 < 31 ∧ 31 < 32) := by decide

theorem test_meets_FoldsCollide :
    fold2 0x7FFFFFFF#32 0x7FFFFFFF#32 = fold2 0xFFFFFFFF#32 0xFFFFFFFF#32 := by decide

/-- A number below `2 ^ p`, one that is rounded, and a tie, at the least precision. -/
theorem test_meets_IntegerRoundingIsToNearestEven :
    0 < 1 ∧ 1 ≤ 2 ^ 1 ∧ 2 ^ (1 + 0) ≤ 3 ∧ 3 < 2 ^ (1 + 0 + 1) ∧ 3 % 2 ^ (0 + 1) = 2 ^ 0 := by decide

theorem test_meets_RoundingIsSymmetricAndMonotone : 0 < 24 ∧ (0 : ℚ) ≤ 1 := by norm_num

/-- The bounds of the significand and of the exponent. -/
theorem test_meets_Binary32EncodingKeepsTheValue :
    2 ^ 23 ≤ 2 ^ 23 ∧ 2 ^ 24 - 1 < 2 ^ 24 ∧ (-126 : Int) ≤ -126 ∧ (127 : Int) ≤ 127 := by decide

theorem test_meets_ScaledNoiseStaysInRangeAndIsMonotone :
    Word.unsigned 1#32 ≤ Word.unsigned 0xFFFFFFFF#32 ∧
    Word.signed 0x80000000#32 ≤ Word.signed 0xFFFFFFFF#32 := by decide

theorem test_meets_NoSpecialFloatArises : (1#32 ≠ 0) ∧ (0x80000000#32 ≠ 0) := by decide

theorem test_meets_NmapAsymmetryIsKept : (1#32 ≠ 0) ∧ (1#32 ≠ 0x80000000#32) := by decide

theorem test_meets_StepRunsTheDecodedInstruction :
    (scheduled [present 0xC0000000000000000000000000000000000000001#164]).input.reqValid = true ∧
    (scheduled [present 0xC0000000000000000000000000000000000000001#164]).input.rst = false ∧
    decode (scheduled [present 0xC0000000000000000000000000000000000000001#164]).input.request = .ok (.scramble 1 0) ∧
    exec (.scramble 1 0) (scheduled [present 0xC0000000000000000000000000000000000000001#164]) =
      .next ((scheduled [present 0xC0000000000000000000000000000000000000001#164]).complete (scramble 1 0)) :=
  ⟨by decide, by decide, by decide, rfl⟩

theorem test_meets_IdleCycleOnlyDeliversWhatIsDue :
    State.reset.input.reqValid = false ∧ State.reset.input.rst = false := by decide

theorem test_meets_ReservedCodeIsAnsweredWithErr :
    acceptsOn ⟨0, false⟩ (scheduled [present 0xD0000000000000000000000000000000000000001#164]).input = true ∧
    errOfCode (scheduled [present 0xD0000000000000000000000000000000000000001#164]).input.request.op = true := by decide

theorem test_meets_ResetEdgeEmptiesThePipeline :
    0 < (⟨1, false⟩ : Timing).latency ∧ (scheduled [presentInReset 0xC0000000000000000000000000000000000000001#164]).input.rst = true := by decide

theorem test_meets_CombinationalBlockAnswersInTheSameCycle :
    (scheduled [present 0xC0000000000000000000000000000000000000001#164]).inFlight = [] ∧
    (scheduled [present 0xC0000000000000000000000000000000000000001#164]).input.reqValid = true ∧ State.reset.input.reqValid = false := by decide

/-- A block with a request in flight, one cycle old, and the cycle after it. -/
def midRun : State := { State.reset with inFlight := [⟨⟨false, 5⟩, 2⟩, ⟨⟨false, 6⟩, 1⟩] }

theorem test_meets_EveryStepKeepsTheInvariant :
    Inv ⟨2, true⟩ midRun ∧ (∃ s', clockCycle ⟨2, true⟩ midRun = .next s') ∧
    Inv Config.timing State.reset ∧ ∃ s', step State.reset = .next s' := by
  refine ⟨⟨⟨by decide, by decide⟩, ?_⟩, ⟨_, rfl⟩, ⟨⟨?_, ?_⟩, ?_⟩, ⟨_, rfl⟩⟩
  · intro p h; cases h
  · exact List.Pairwise.nil
  · intro e h; cases h
  · intro p h; cases h

theorem test_meets_AtMostLatencyRequestsInFlight : PipelineOk ⟨2, true⟩ midRun :=
  ⟨by decide, by decide⟩

theorem test_meets_ResponseComesLatencyCyclesAfterItsRequest :
    (scheduled [present 0xC0000000000000000000000000000000000000001#164]).inFlight = [] ∧
    (⟨2, true⟩ : Timing).latency ≤ 2 ∧
    acceptsOn ⟨2, true⟩ (inputAt [present 0xC0000000000000000000000000000000000000001#164] (2 - 2)) = true ∧
    ¬ resetBetween ⟨2, true⟩ [present 0xC0000000000000000000000000000000000000001#164] (2 - 2) 2 := by
  refine ⟨rfl, by decide, by decide, ?_⟩
  rintro ⟨j, h1, h2, h3⟩
  obtain rfl : j = 1 := by omega
  exact absurd h3 (by decide)

theorem test_meets_RunAnswersEveryRequestInOrder :
    (scheduled [present 0xC0000000000000000000000000000000000000001#164, present 0xD0000000000000000000000000000000000000001#164]).inFlight = [] ∧
    ∀ p ∈ (scheduled [present 0xC0000000000000000000000000000000000000001#164, present 0xD0000000000000000000000000000000000000001#164]).inputs, p.rst = false := by decide

theorem test_meets_DeliveredResponsesAnswerASublistOfTheRequests :
    (scheduled [present 0xC0000000000000000000000000000000000000001#164, presentInReset 0xC0000000000000000000000000000000000000001#164]).inFlight = [] := by decide

theorem test_meets_AssignedCodesGiveAnErrFreeRun :
    (scheduled [present 0xC0000000000000000000000000000000000000001#164]).inFlight = [] ∧
    (∀ p ∈ (scheduled [present 0xC0000000000000000000000000000000000000001#164]).responses, p.err = false) ∧
    ∀ p ∈ (scheduled [present 0xC0000000000000000000000000000000000000001#164]).inputs, p.reqValid = true → p.request.assigned = true := by decide

/-- Two runs of different length that present the same request in different company. -/
theorem test_meets_ResponseDependsOnItsOwnRequestOnly :
    (scheduled [present 0xC0000000000000000000000000000000000000001#164]).inFlight = [] ∧
    (scheduled [present 0xD0000000000000000000000000000000000000001#164, present 0xC0000000000000000000000000000000000000001#164]).inFlight = [] ∧
    (⟨1, true⟩ : Timing).latency ≤ 1 ∧ (⟨1, true⟩ : Timing).latency ≤ 2 ∧
    acceptsOn ⟨1, true⟩ (inputAt [present 0xC0000000000000000000000000000000000000001#164] (1 - 1)) = true ∧
    acceptsOn ⟨1, true⟩ (inputAt [present 0xD0000000000000000000000000000000000000001#164, present 0xC0000000000000000000000000000000000000001#164] (2 - 1)) = true ∧
    (inputAt [present 0xC0000000000000000000000000000000000000001#164] (1 - 1)).request =
      (inputAt [present 0xD0000000000000000000000000000000000000001#164, present 0xC0000000000000000000000000000000000000001#164] (2 - 1)).request ∧
    (inputAt [present 0xC0000000000000000000000000000000000000001#164] (1 - 1)).request.assigned = true ∧
    ¬ resetBetween ⟨1, true⟩ [present 0xC0000000000000000000000000000000000000001#164] (1 - 1) 1 ∧
    ¬ resetBetween ⟨1, true⟩ [present 0xD0000000000000000000000000000000000000001#164, present 0xC0000000000000000000000000000000000000001#164] (2 - 1) 2 := by
  refine ⟨rfl, rfl, by decide, by decide, by decide, by decide, by decide, by decide, ?_, ?_⟩
  · rintro ⟨j, h1, h2, -⟩; omega
  · rintro ⟨j, h1, h2, -⟩; omega

theorem test_meets_NeverResetBlockAgreesAfterLatencyCycles : (⟨3, true⟩ : Timing).latency ≤ 3 := by decide

theorem test_meets_NoResponseWithoutARequestAfterReset :
    ∀ p ∈ [PortInput.idle, ⟨true, false, ⟨0, 0, 0, 0, 0, 0⟩⟩], p.reqValid = false := by decide

end Sys2Proof.Tests
end

section
/-! SUPPORT. What a request is answered with: the decoder followed by exec agrees with `respond`
(30_encoding.md R69), and an assigned code leaves nothing to be drawn (60_exceptions.md R160). -/

namespace Sys2Proof.Machine

/-- A decoded request completes with its own response, whatever could have been drawn. -/
theorem exec_of_decode {q : Request} {i : Instr} (h : decode q = .ok i) (drawn : Word) (s : State) :
    exec i s = .next (s.accept (respond drawn q)) := by
  obtain ⟨op, seed, t, z, y, x⟩ := q
  unfold decode at h
  split at h
  case h_14 => cases h
  all_goals
    rename_i hop
    obtain ⟨-, rfl⟩ := BitVec.toNat_eq_nat.mp hop
    cases h
    rw [exec_completes]
    simp [respond, respondPosition, mapSelector, dimSelector, State.complete, normalResponse,
      noiseUint1D, noiseUint2D, noiseUint3D, noiseUint4D]

/-- A code from 13 on has the selectors that `respond` answers as `IllegalOp`. -/
theorem selectors_of_reserved (op : BitVec 4) :
    13 ≤ op.toNat → mapSelector op = 0b11#2 ∧ dimSelector op ≠ 0b00#2 := by
  revert op; decide

/-- Under the map selector `11` the only assigned code is SCRAMBLE's. -/
theorem dimSelector_of_assigned (op : BitVec 4) :
    op.toNat < 13 → mapSelector op = 0b11#2 → dimSelector op = 0b00#2 := by
  revert op; decide

/-- The decoder rejects reserved codes only. -/
theorem reserved_of_decode_error {q : Request} {e : DecodeError} (h : decode q = .error e) :
    13 ≤ q.op.toNat := by
  by_contra hlt
  interval_cases hk : q.op.toNat <;> simp [decode, hk] at h

/-- The response to a request that the decoder rejects. -/
theorem respond_of_decode_error {q : Request} {e : DecodeError} (h : decode q = .error e)
    (drawn : Word) : respond drawn q = illegalResponse drawn := by
  obtain ⟨hmap, hdim⟩ := selectors_of_reserved q.op (reserved_of_decode_error h)
  simp [respond, hmap, hdim, illegalResponse]

/-- For an assigned code the response does not depend on the draw. -/
theorem respond_of_assigned {q : Request} (h : q.assigned = true) (d d' : Word) :
    respond d q = respond d' q := by
  have hop : q.op.toNat < 13 := by simpa [Request.assigned] using h
  by_cases hmap : mapSelector q.op = 0b11#2
  · simp [respond, hmap, dimSelector_of_assigned q.op hop hmap]
  · simp [respond, hmap]

/-- For an assigned code `err` is 0. -/
theorem respond_err_of_assigned {q : Request} (h : q.assigned = true) (drawn : Word) :
    (respond drawn q).err = false := by
  have hop : q.op.toNat < 13 := by simpa [Request.assigned] using h
  by_cases hmap : mapSelector q.op = 0b11#2
  · simp [respond, hmap, dimSelector_of_assigned q.op hop hmap]
  · simp only [respond, hmap, if_false]
    split_ifs <;> rfl

/-- A request with an assigned code has one answer only. -/
theorem Answers.unique {q : Request} {p p' : Response} (hp : Answers q p) (hp' : Answers q p')
    (h : q.assigned = true) : p = p' := by
  obtain ⟨d, rfl⟩ := hp
  obtain ⟨d', rfl⟩ := hp'
  exact respond_of_assigned h d d'

/-- A request with an assigned code is answered with `err` = 0. -/
theorem Answers.err_of_assigned {q : Request} {p : Response} (hp : Answers q p)
    (h : q.assigned = true) : p.err = false := by
  obtain ⟨d, rfl⟩ := hp
  exact respond_err_of_assigned h d

end Sys2Proof.Machine
end

section
/-! SUPPORT. A clock cycle in two parts: the request of the cycle is taken in, if it is accepted, with a
response that answers it; then the cycle closes (70_reset_and_hazards.md R186). -/

namespace Sys2Proof.Machine

/-- `s'` is `s` after the request of the coming cycle, if it is accepted, was taken into the pipeline. -/
inductive TakesIn (t : Timing) (s : State) : State → Prop
  | accepted (p : Response) (ha : acceptsOn t s.input = true) (hp : Answers s.input.request p) :
      TakesIn t s (s.accept p)
  | nothing (ha : acceptsOn t s.input = false) : TakesIn t s s

/-- Every cycle answers a next state, and does so by taking in and closing. -/
theorem clockCycle_takesIn (t : Timing) (s : State) :
    ∃ s1, TakesIn t s s1 ∧ clockCycle t s = .next (s1.closeCycle t) := by
  cases ha : acceptsOn t s.input with
  | false => exact ⟨s, .nothing ha, clockCycle_of_not_accepts ha⟩
  | true =>
    cases hd : decode s.input.request with
    | ok i =>
      exact ⟨_, .accepted (respond 0 s.input.request) ha ⟨0, rfl⟩,
        by simp [clockCycle, ha, hd, exec_of_decode hd 0]⟩
    | error e =>
      have hp := respond_of_decode_error hd (Config.unspecifiedResult s.draws)
      exact ⟨s.raiseIllegalOp, .accepted _ ha ⟨_, hp.symm⟩, by simp [clockCycle, ha, hd]⟩

theorem TakesIn.inputs_eq {t : Timing} {s s1 : State} (h : TakesIn t s s1) :
    s1.inputs = s.inputs := by
  cases h <;> rfl

theorem TakesIn.input_eq {t : Timing} {s s1 : State} (h : TakesIn t s s1) : s1.input = s.input := by
  cases h <;> rfl

/-- Taking in a request discards nothing. -/
theorem TakesIn.mem_inFlight {t : Timing} {s s1 : State} (h : TakesIn t s s1) {e : InFlight}
    (he : e ∈ s.inFlight) : e ∈ s1.inFlight := by
  cases h with
  | accepted p => simp [he]
  | nothing => exact he

/-- An accepted request stands in the pipeline with an answer of its own, at age 0. -/
theorem TakesIn.exists_answer {t : Timing} {s s1 : State} (h : TakesIn t s s1)
    (ha : acceptsOn t s.input = true) :
    ∃ p, Answers s.input.request p ∧ ⟨p, 0⟩ ∈ s1.inFlight := by
  cases h with
  | accepted p _ hp => exact ⟨p, hp, by simp⟩
  | nothing hn => simp [hn] at ha

end Sys2Proof.Machine
end

section
/-! SUPPORT. Runs of cycles: every run completes, two runs compose, and what each cycle keeps a run
keeps. -/

namespace Sys2Proof.Machine

/-- What every cycle keeps holds after every run; the run completes and has consumed its inputs. -/
theorem runCycles_keeps {t : Timing} {P : State → Prop}
    (hstep : ∀ s s1, P s → TakesIn t s s1 → P (s1.closeCycle t)) (n : Nat) {s : State} (hs : P s) :
    ∃ s', runCycles t n s = .next s' ∧ s'.inputs = s.inputs.drop n ∧ P s' := by
  induction n generalizing s with
  | zero => exact ⟨s, rfl, rfl, hs⟩
  | succ n ih =>
    obtain ⟨s1, h1, hc⟩ := clockCycle_takesIn t s
    obtain ⟨s', hrun, hin, hP⟩ := ih (hstep s s1 hs h1)
    refine ⟨s', by rw [runCycles_succ_of_next n hc, hrun], ?_, hP⟩
    simp [hin, h1.inputs_eq, List.drop_tail]

/-- A run of `m + n` cycles is a run of `m` cycles and then one of `n`. -/
theorem runCycles_add {t : Timing} {s s' : State} (m n : Nat) (h : runCycles t m s = .next s') :
    runCycles t (m + n) s = runCycles t n s' := by
  induction m generalizing s with
  | zero => cases h; simp
  | succ m ih =>
    obtain ⟨s1, -, hc⟩ := clockCycle_takesIn t s
    rw [runCycles_succ_of_next m hc] at h
    rw [Nat.add_right_comm, runCycles_succ_of_next _ hc, ih h]

theorem State.input_eq_inputAt (s : State) : s.input = inputAt s.inputs 0 := by
  cases h : s.inputs <;> simp [State.input, inputAt, h]

/-- A cycle that accepts a request has no reset edge. -/
theorem resetsOn_of_acceptsOn {t : Timing} {p : PortInput} (h : acceptsOn t p = true) :
    resetsOn t p = false :=
  Bool.eq_false_iff.mpr fun hr => by simp [acceptsOn_of_resetsOn hr] at h

/-- Without a reset edge in the schedule the coming cycle has none. -/
theorem resetsOn_input {t : Timing} {s : State} (h : ∀ p ∈ s.inputs, resetsOn t p = false) :
    resetsOn t s.input = false := by
  cases hins : s.inputs with
  | nil => simp [State.input, hins, resetsOn, PortInput.idle]
  | cons p ins => simpa [State.input, hins] using h p (by simp [hins])

theorem inputAt_drop (ins : List PortInput) (k j : Nat) :
    inputAt (ins.drop k) j = inputAt ins (k + j) := by
  simp [inputAt, List.getD_eq_getElem?_getD]

theorem inputAt_tail (ins : List PortInput) (j : Nat) : inputAt ins.tail j = inputAt ins (j + 1) := by
  simp [inputAt, List.getD_eq_getElem?_getD]

end Sys2Proof.Machine
end

section
/-! SUPPORT. The pipeline during a run (70_reset_and_hazards.md R186 to R188): every cycle keeps
`PipelineOk`, and a request in flight that no reset edge cuts off reaches the response channel when it
is `LATENCY` cycles old. -/

namespace Sys2Proof.Machine

/-- The pipeline is sound after the request of the cycle was taken in: that request has age 0. -/
def LoadedOk (t : Timing) (s : State) : Prop :=
  s.inFlight.Pairwise (fun a b => b.age < a.age) ∧ ∀ e ∈ s.inFlight, e.age ≤ t.latency

theorem PipelineOk.of_empty (t : Timing) {s : State} (h : s.inFlight = []) : PipelineOk t s := by
  simp [PipelineOk, h]

/-- Taking in a request leaves the pipeline sound: what was there is at least one cycle old. -/
theorem PipelineOk.loadedOk {t : Timing} {s s1 : State} (h : PipelineOk t s) (h1 : TakesIn t s s1) :
    LoadedOk t s1 := by
  obtain ⟨hsorted, hage⟩ := h
  cases h1 with
  | nothing => exact ⟨hsorted, fun e he => (hage e he).2⟩
  | accepted p =>
    refine ⟨?_, ?_⟩
    · simp only [State.accept_inFlight, List.pairwise_append, List.pairwise_singleton,
        List.mem_singleton, forall_eq, true_and]
      exact ⟨hsorted, fun e he => (hage e he).1⟩
    · simp only [State.accept_inFlight, List.mem_append, List.mem_singleton]
      rintro e (he | rfl)
      · exact (hage e he).2
      · exact Nat.zero_le _

/-- Only requests younger than `LATENCY` stay behind. -/
theorem LoadedOk.age_lt_of_mem_afterDue {t : Timing} {s : State} (h : LoadedOk t s) {e : InFlight}
    (he : e ∈ afterDue t.latency s.inFlight) : e.age < t.latency := by
  obtain ⟨hsorted, hage⟩ := h
  cases hes : s.inFlight with
  | nil => simp [hes] at he
  | cons first rest =>
    rw [hes] at hsorted hage he
    have hfirst := hage first (by simp)
    have hrest := (List.pairwise_cons.mp hsorted).1
    by_cases hdue : t.latency ≤ first.age
    · have := hrest e (by simpa [afterDue, hdue] using he)
      omega
    · have hmem : e = first ∨ e ∈ rest := by simpa [afterDue, hdue] using he
      rcases hmem with rfl | hmem
      · omega
      · have := hrest e hmem
        omega

/-- What is in flight after a cycle was in flight before it closed, one cycle younger. -/
theorem exists_of_mem_closeCycle {t : Timing} {s : State} {e : InFlight}
    (he : e ∈ (s.closeCycle t).inFlight) :
    ∃ e0 ∈ afterDue t.latency s.inFlight, e = ⟨e0.rsp, e0.age + 1⟩ := by
  rw [State.closeCycle_inFlight] at he
  split at he
  · cases he
  · obtain ⟨e0, he0, rfl⟩ := List.mem_map.mp he
    exact ⟨e0, he0, rfl⟩

/-- Every cycle keeps the pipeline sound. -/
theorem PipelineOk.closeCycle {t : Timing} {s s1 : State} (h : PipelineOk t s)
    (h1 : TakesIn t s s1) : PipelineOk t (s1.closeCycle t) := by
  have hloaded := h.loadedOk h1
  refine ⟨?_, fun e he => ?_⟩
  · have hsorted := hloaded.1.sublist (afterDue_sublist t.latency s1.inFlight)
    rw [State.closeCycle_inFlight]
    split
    · exact List.Pairwise.nil
    · simpa [ageAll, List.pairwise_map] using hsorted
  · obtain ⟨e0, he0, rfl⟩ := exists_of_mem_closeCycle he
    exact ⟨Nat.le_add_left _ _, hloaded.age_lt_of_mem_afterDue he0⟩

/-- A request that is `LATENCY` cycles old is the oldest one, and its response is due. -/
theorem LoadedOk.dueResponse_of_mem {t : Timing} {s : State} (h : LoadedOk t s) {e : InFlight}
    (he : e ∈ s.inFlight) (hage : e.age = t.latency) :
    dueResponse t.latency s.inFlight = some e.rsp := by
  obtain ⟨hsorted, hle⟩ := h
  cases hes : s.inFlight with
  | nil => simp [hes] at he
  | cons first rest =>
    rw [hes] at hsorted hle he
    rcases List.mem_cons.mp he with rfl | hmem
    · simp [dueResponse, hage]
    · have := (List.pairwise_cons.mp hsorted).1 e hmem
      have := hle first (by simp)
      omega

/-- A request younger than `LATENCY` stays in the pipeline. -/
theorem mem_afterDue_of_age_lt {L : Nat} {es : List InFlight} {e : InFlight} (he : e ∈ es)
    (hage : e.age < L) : e ∈ afterDue L es := by
  cases es with
  | nil => simp at he
  | cons first rest =>
    by_cases hdue : L ≤ first.age
    · have hne : e ≠ first := by rintro rfl; omega
      simpa [afterDue, hdue, hne] using he
    · simpa [afterDue, hdue] using he

/-- Where no reset edge falls, a request younger than `LATENCY` is in flight one cycle longer. -/
theorem mem_closeCycle_inFlight {t : Timing} {s : State} {e : InFlight} (he : e ∈ s.inFlight)
    (hage : e.age < t.latency) (hr : resetsOn t s.input = false) :
    ⟨e.rsp, e.age + 1⟩ ∈ (s.closeCycle t).inFlight := by
  simp only [State.closeCycle_inFlight, hr, Bool.false_eq_true, if_false, ageAll, List.mem_map]
  exact ⟨e, mem_afterDue_of_age_lt he hage, rfl⟩

/-- A request that lacks `k` cycles of its latency and is not cut off in them shows its response in the
cycle after them. -/
theorem rsp_of_mem_inFlight {t : Timing} (k : Nat) {s : State} {e : InFlight} (hok : PipelineOk t s)
    (he : e ∈ s.inFlight) (hage : e.age + k = t.latency)
    (hr : ∀ j < k, resetsOn t (inputAt s.inputs j) = false) :
    ∃ s', runCycles t (k + 1) s = .next s' ∧ s'.rsp = some e.rsp := by
  induction k generalizing s e with
  | zero =>
    obtain ⟨s1, h1, hc⟩ := clockCycle_takesIn t s
    refine ⟨_, by rw [runCycles_succ_of_next 0 hc, runCycles_zero], ?_⟩
    rw [State.closeCycle_rsp]
    exact (hok.loadedOk h1).dueResponse_of_mem (h1.mem_inFlight he) hage
  | succ k ih =>
    obtain ⟨s1, h1, hc⟩ := clockCycle_takesIn t s
    have hr0 : resetsOn t s1.input = false := by
      rw [h1.input_eq, State.input_eq_inputAt]
      exact hr 0 (Nat.succ_pos k)
    have he1 := mem_closeCycle_inFlight (h1.mem_inFlight he) (by omega) hr0
    rw [runCycles_succ_of_next _ hc]
    refine ih (e := ⟨e.rsp, e.age + 1⟩) (hok.closeCycle h1) he1 (by simp only; omega) fun j hj => ?_
    rw [State.closeCycle_inputs, h1.inputs_eq, inputAt_tail]
    exact hr (j + 1) (Nat.succ_lt_succ hj)

/-- A request accepted in the coming cycle and not cut off shows an answer of its own `LATENCY` cycles
later. -/
theorem rsp_of_accepts {t : Timing} {s : State} (hok : PipelineOk t s)
    (ha : acceptsOn t s.input = true)
    (hr : ∀ j, 0 < j → j < t.latency → resetsOn t (inputAt s.inputs j) = false) :
    ∃ s' p, runCycles t (t.latency + 1) s = .next s' ∧ s'.rsp = some p ∧ Answers s.input.request p := by
  obtain ⟨s1, h1, hc⟩ := clockCycle_takesIn t s
  obtain ⟨p, hp, hmem⟩ := h1.exists_answer ha
  rw [runCycles_succ_of_next _ hc]
  cases hL : t.latency with
  | zero =>
    refine ⟨_, p, rfl, ?_, hp⟩
    rw [State.closeCycle_rsp]
    exact (hok.loadedOk h1).dueResponse_of_mem hmem hL.symm
  | succ k =>
    have hr0 : resetsOn t s1.input = false := by
      rw [h1.input_eq]
      exact resetsOn_of_acceptsOn ha
    have hmem1 := mem_closeCycle_inFlight hmem (by simp only; omega) hr0
    obtain ⟨s', hrun, hrsp⟩ := rsp_of_mem_inFlight k (hok.closeCycle h1) hmem1
      (by simp only; omega) fun j hj => by
        rw [State.closeCycle_inputs, h1.inputs_eq, inputAt_tail]
        exact hr (j + 1) (Nat.succ_pos j) (by omega)
    exact ⟨s', p, hrun, hrsp, hp⟩

/-- Every run completes and keeps the pipeline sound. -/
theorem runCycles_pipelineOk {t : Timing} (n : Nat) {s : State} (h : PipelineOk t s) :
    ∃ s', runCycles t n s = .next s' ∧ s'.inputs = s.inputs.drop n ∧ PipelineOk t s' :=
  runCycles_keeps (fun _ _ hs h1 => hs.closeCycle h1) n h

/-- From a state with nothing in flight: cycle `n` shows an answer to the request accepted in cycle
`n - LATENCY`, if no reset edge cut it off. -/
theorem rsp_of_request_latency_cycles_ago {t : Timing} {s : State} {n : Nat} (hs : s.inFlight = [])
    (hn : t.latency ≤ n) (ha : acceptsOn t (inputAt s.inputs (n - t.latency)) = true)
    (hr : ¬ resetBetween t s.inputs (n - t.latency) n) :
    ∃ s' p, runCycles t (n + 1) s = .next s' ∧ s'.rsp = some p ∧
      Answers (inputAt s.inputs (n - t.latency)).request p := by
  obtain ⟨c, rfl⟩ := Nat.exists_eq_add_of_le' hn
  rw [Nat.add_sub_cancel] at ha hr ⊢
  obtain ⟨sc, hrun, hin, hok⟩ := runCycles_pipelineOk c (.of_empty t hs)
  have hinput : sc.input = inputAt s.inputs c := by
    rw [State.input_eq_inputAt, hin, inputAt_drop, Nat.add_zero]
  rw [Nat.add_assoc, runCycles_add c _ hrun, ← hinput]
  refine rsp_of_accepts hok (hinput ▸ ha) fun j hpos hj => ?_
  rw [hin, inputAt_drop]
  exact Bool.eq_false_iff.mpr fun hrst => hr ⟨c + j, by omega, by omega, hrst⟩

end Sys2Proof.Machine
end

section
/-! SUPPORT. The account of a run without reset (00_scope.md R18, 20_memory.md R46): what was delivered
and what is in flight grow by the answers to the requests accepted, in order; and a pipeline that takes
in nothing for `LATENCY` cycles is empty. -/

namespace Sys2Proof.Machine

/-- The responses delivered and then those in flight, in request order. -/
def State.account (s : State) : List Response := s.responses ++ s.inFlight.map InFlight.rsp

/-- Closing a cycle without a reset edge moves responses from the pipeline to the record, at most. -/
theorem State.closeCycle_account {t : Timing} {s : State} (hr : resetsOn t s.input = false) :
    (s.closeCycle t).account = s.account := by
  have hage (es : List InFlight) : (ageAll es).map InFlight.rsp = es.map InFlight.rsp := by
    simp [ageAll]
  simp [State.account, hr, hage, due_append_after t.latency s.inFlight]

/-- The accepted requests of a schedule with one more cycle at its front. -/
theorem acceptedRequests_cons (t : Timing) (p : PortInput) (ins : List PortInput) :
    acceptedRequests t (p :: ins) =
      (if acceptsOn t p then [p.request] else []) ++ acceptedRequests t ins := by
  by_cases h : acceptsOn t p = true <;> simp [acceptedRequests, h]

/-- The requests accepted in `n + 1` cycles: the one of the coming cycle, then those of `n` more. -/
theorem acceptedRequests_take_succ (t : Timing) (s : State) (n : Nat) :
    acceptedRequests t (s.inputs.take (n + 1)) =
      (if acceptsOn t s.input then [s.input.request] else []) ++
        acceptedRequests t (s.inputs.tail.take n) := by
  cases h : s.inputs with
  | nil => simp [State.input, h, acceptsOn, PortInput.idle, acceptedRequests]
  | cons p ins => simp [State.input, h, acceptedRequests_cons]

/-- Taking in the request of a cycle adds an answer to it, and nothing else. -/
theorem TakesIn.account_eq {t : Timing} {s s1 : State} (h : TakesIn t s s1) :
    ∃ ps, s1.account = s.account ++ ps ∧
      List.Forall₂ Answers (if acceptsOn t s.input then [s.input.request] else []) ps := by
  cases h with
  | accepted p ha hp => exact ⟨[p], by simp [State.account], by simpa [ha] using hp⟩
  | nothing ha => exact ⟨[], by simp, by simp [ha]⟩

/-- A run without a reset edge adds an answer to every request it accepts, in request order. -/
theorem runCycles_account {t : Timing} (n : Nat) {s s' : State}
    (hr : ∀ p ∈ s.inputs, resetsOn t p = false) (hrun : runCycles t n s = .next s') :
    ∃ ps, s'.account = s.account ++ ps ∧
      List.Forall₂ Answers (acceptedRequests t (s.inputs.take n)) ps := by
  induction n generalizing s with
  | zero =>
    cases hrun
    exact ⟨[], by simp, by simp [acceptedRequests]⟩
  | succ n ih =>
    obtain ⟨s1, h1, hc⟩ := clockCycle_takesIn t s
    obtain ⟨ps, hps, hans⟩ := h1.account_eq
    have hr0 : resetsOn t s1.input = false := by
      rw [h1.input_eq]
      exact resetsOn_input hr
    have hins : (s1.closeCycle t).inputs = s.inputs.tail := by
      rw [State.closeCycle_inputs, h1.inputs_eq]
    rw [runCycles_succ_of_next n hc] at hrun
    obtain ⟨qs, hqs, hans'⟩ := ih (fun p hp => hr p (List.mem_of_mem_tail (hins ▸ hp))) hrun
    refine ⟨ps ++ qs, ?_, ?_⟩
    · rw [hqs, State.closeCycle_account hr0, hps, List.append_assoc]
    · rw [acceptedRequests_take_succ, ← hins]
      exact List.rel_append hans hans'

/-- In `n` cycles after the last input every request still in flight becomes `n` cycles older. -/
theorem runCycles_ages {t : Timing} (n : Nat) {s s' : State} {a : Nat} (hins : s.inputs = [])
    (hage : ∀ e ∈ s.inFlight, a ≤ e.age) (hrun : runCycles t n s = .next s') :
    ∀ e ∈ s'.inFlight, a + n ≤ e.age := by
  induction n generalizing s a with
  | zero => cases hrun; exact hage
  | succ n ih =>
    have hidle : acceptsOn t s.input = false := by simp [State.input, hins, acceptsOn, PortInput.idle]
    rw [runCycles_succ_of_next n (clockCycle_of_not_accepts hidle)] at hrun
    have hage' : ∀ e ∈ (s.closeCycle t).inFlight, a + 1 ≤ e.age := by
      intro e he
      obtain ⟨e0, he0, rfl⟩ := exists_of_mem_closeCycle he
      exact Nat.succ_le_succ (hage e0 ((afterDue_sublist _ _).subset he0))
    intro e he
    have := ih (by simp [hins]) hage' hrun e he
    omega

/-- `LATENCY` cycles after the last input nothing is in flight. -/
theorem inFlight_empty_of_drained {t : Timing} {s s' : State} (hok : PipelineOk t s)
    (hins : s.inputs = []) (hrun : runCycles t t.latency s = .next s') (hok' : PipelineOk t s') :
    s'.inFlight = [] := by
  obtain ⟨-, hage⟩ := hok
  obtain ⟨-, hage'⟩ := hok'
  refine List.eq_nil_iff_forall_not_mem.mpr fun e he => ?_
  have hold := runCycles_ages t.latency hins (fun e0 he0 => (hage e0 he0).1) hrun e he
  have hyoung := (hage' e he).2
  omega

end Sys2Proof.Machine
end

section
/-! The obligations of 00_scope.md. -/

open Sys2Proof Sys2Proof.Machine

/-- Settles O46: the pipeline stays sound, the account of the run grows by one answer per accepted request,
and the last `LATENCY` cycles empty the pipeline. -/
theorem runAnswersEveryRequestInOrder : Obligations.RunAnswersEveryRequestInOrder := by
  intro t s hempty hrst
  obtain ⟨sm, hrunm, hinsm, hokm⟩ := runCycles_pipelineOk s.inputs.length (.of_empty t hempty)
  obtain ⟨s', hrun', -, hok'⟩ := runCycles_pipelineOk t.latency hokm
  have hrun : runCycles t (s.inputs.length + t.latency) s = .next s' := by
    rw [runCycles_add _ _ hrunm, hrun']
  have hdrained : s'.inFlight = [] := inFlight_empty_of_drained hokm (by simp [hinsm]) hrun' hok'
  obtain ⟨ps, haccount, hanswers⟩ :=
    runCycles_account _ (fun p hp => resetsOn_of_rst_false (hrst p hp)) hrun
  rw [List.take_of_length_le (Nat.le_add_right _ _)] at hanswers
  exact ⟨s', ps, hrun, by simpa [State.account, hempty, hdrained] using haccount, hanswers, hdrained⟩

/-- Settles O49: each run shows an answer to the one request, and a request with an assigned code has one
answer only. -/
theorem responseDependsOnItsOwnRequestOnly : Obligations.ResponseDependsOnItsOwnRequestOnly := by
  intro t s1 s2 n1 n2 hs1 hs2 hn1 hn2 ha1 ha2 hq hassigned hr1 hr2
  obtain ⟨s1', p, hrun1, hrsp1, hp⟩ := rsp_of_request_latency_cycles_ago hs1 hn1 ha1 hr1
  obtain ⟨s2', p', hrun2, hrsp2, hp'⟩ := rsp_of_request_latency_cycles_ago hs2 hn2 ha2 hr2
  obtain rfl : p = p' := hp.unique (hq ▸ hp') hassigned
  exact ⟨s1', s2', p, hrun1, hrun2, hrsp1, hrsp2, hp.err_of_assigned hassigned⟩

end

section
/-! SUPPORT. One more step of the host's run; one cycle written out where no reset edge falls
(10_state.md R28, R29); and the combinational block whose `rst` is unconnected (10_state.md R30). -/

namespace Sys2Proof.Machine

/-- Closing a cycle without a reset edge, field by field. -/
theorem State.closeCycle_of_not_resetsOn {t : Timing} {s : State} (h : resetsOn t s.input = false) :
    s.closeCycle t =
      { inputs := s.inputs.tail
        inFlight := ageAll (afterDue t.latency s.inFlight)
        rsp := dueResponse t.latency s.inFlight
        responses := s.responses ++ (dueResponse t.latency s.inFlight).toList
        draws := s.draws + 1 } :=
  State.ext_fields (by simp) (by simp [h]) (by simp) (by simp) (by simp)

/-- One more step at the front of the host's run, for any machine. -/
theorem coreRun_succ_of_next {M : Host.Core} {s s' : M.State} (n : Nat) (h : M.step s = .next s') :
    M.run (n + 1) s = M.run n s' := by simp [Host.Core.run, h]

/-- A cycle that accepts a request the decoder takes runs `exec`, and then closes. -/
theorem clockCycle_of_decode {t : Timing} {s s' : State} {i : Instr} (ha : acceptsOn t s.input = true)
    (hd : decode s.input.request = .ok i) (he : exec i s = .next s') :
    clockCycle t s = .next (s'.closeCycle t) := by simp [clockCycle, ha, hd, he]

theorem acceptsOn_of_rst_false {t : Timing} {p : PortInput} (h : p.rst = false) :
    acceptsOn t p = p.reqValid := by simp [acceptsOn, resetsOn_of_rst_false h]

theorem acceptsOn_of_reqValid_false {t : Timing} {p : PortInput} (h : p.reqValid = false) :
    acceptsOn t p = false := by simp [acceptsOn, h]

theorem resetsOn_combinational (p : PortInput) : resetsOn ⟨0, false⟩ p = false := by
  simp [resetsOn, timingSeesReset]

theorem acceptsOn_combinational (p : PortInput) : acceptsOn ⟨0, false⟩ p = p.reqValid := by
  simp [acceptsOn, resetsOn_combinational]

/-- The pipeline that a combinational block's request entered alone is empty at the end of the cycle. -/
theorem State.closeCycle_combinational_inFlight {s : State} {p : Response}
    (h : s.inFlight = [⟨p, 0⟩]) : (s.closeCycle ⟨0, false⟩).inFlight = [] := by
  simp [resetsOn_combinational, h, afterDue]

end Sys2Proof.Machine
end

section
/-! SUPPORT. The two states a block can start from (10_state.md R33, 70_reset_and_hazards.md R180): a
pipeline that powered up with arbitrary contents is sound, and a block after reset stays quiet until a
request is presented. -/

namespace Sys2Proof.Machine

/-- A slot of the powered-up pipeline has one of the ages 1 to its length. -/
theorem age_of_mem_powerUpPipe {k : Nat} {e : InFlight} (he : e ∈ powerUpPipe k) :
    1 ≤ e.age ∧ e.age ≤ k := by
  induction k with
  | zero => cases he
  | succ k ih =>
    have hcases : e.age = k + 1 ∨ e ∈ powerUpPipe k := by
      unfold powerUpPipe at he
      split at he
      · exact (List.mem_cons.mp he).imp_left (by rintro rfl; rfl)
      · exact .inr he
    rcases hcases with hage | hmem
    · omega
    · have := ih hmem
      omega

/-- The powered-up pipeline is sorted, oldest slot first. -/
theorem powerUpPipe_pairwise (k : Nat) : (powerUpPipe k).Pairwise (fun a b => b.age < a.age) := by
  induction k with
  | zero => exact .nil
  | succ k ih =>
    unfold powerUpPipe
    split
    · exact List.pairwise_cons.mpr ⟨fun _ hb => Nat.lt_succ_of_le (age_of_mem_powerUpPipe hb).2, ih⟩
    · exact ih

theorem PipelineOk.powerUp (t : Timing) : PipelineOk t (State.powerUp t) :=
  ⟨powerUpPipe_pairwise t.latency, fun _ he => age_of_mem_powerUpPipe he⟩

theorem ChannelOk.of_rsp_none {s : State} (h : s.rsp = none) : ChannelOk s := by
  simp [ChannelOk, h]

/-- Nothing is presented, in flight, shown or delivered. -/
structure Quiet (s : State) : Prop where
  inputs : ∀ p ∈ s.inputs, p.reqValid = false
  inFlight : s.inFlight = []
  rsp : s.rsp = none
  responses : s.responses = []

/-- A block that is quiet takes in nothing. -/
theorem Quiet.takesIn {t : Timing} {s s1 : State} (h : Quiet s) (h1 : TakesIn t s s1) : s1 = s := by
  have hvalid : s.input.reqValid = false := by
    cases hins : s.inputs with
    | nil => simp [State.input, hins, PortInput.idle]
    | cons p ins => simpa [State.input, hins] using h.inputs p (by simp [hins])
  cases h1 with
  | accepted p ha => simp [acceptsOn_of_reqValid_false hvalid] at ha
  | nothing => rfl

/-- A quiet block stays quiet, also through a reset edge. -/
theorem Quiet.closeCycle {t : Timing} {s : State} (h : Quiet s) : Quiet (s.closeCycle t) where
  inputs p hp := h.inputs p (List.mem_of_mem_tail hp)
  inFlight := by simp [h.inFlight]
  rsp := by simp [h.inFlight]
  responses := by simp [h.inFlight, h.responses]

end Sys2Proof.Machine
end

section
/-! The obligations of 10_state.md. -/

open Sys2Proof Sys2Proof.Machine

/-- Settles O51, by induction on the number of steps: the host's step is the clock cycle with the
implementation's timing. -/
theorem hostRunIsARunOfCycles : Obligations.HostRunIsARunOfCycles := by
  intro n
  induction n with
  | zero => exact fun _ => rfl
  | succ n ih =>
    intro s
    obtain ⟨s1, -, hc⟩ := clockCycle_takesIn Config.timing s
    rw [runCycles_succ_of_next n hc, ← ih]
    exact coreRun_succ_of_next (M := Sys2Proof.core) n hc

/-- Settles O52: the block is quiet after reset, and every cycle keeps it quiet. -/
theorem noResponseWithoutARequestAfterReset : Obligations.NoResponseWithoutARequestAfterReset := by
  refine ⟨rfl, rfl, fun t ins n hins => ?_⟩
  have hkeeps : ∀ s s1, Quiet s → TakesIn t s s1 → Quiet (s1.closeCycle t) := by
    intro s s1 hs h1
    obtain rfl := hs.takesIn h1
    exact hs.closeCycle
  have hquiet : Quiet { State.reset with inputs := ins } := ⟨hins, rfl, rfl, rfl⟩
  obtain ⟨s', hrun, -, hs'⟩ := runCycles_keeps hkeeps n hquiet
  exact ⟨s', hrun, by simp [State.rspValidPort, hs'.rsp], hs'.responses⟩

/-- Settles O36: the request is accepted, `exec` only enters its response in the pipeline, and the cycle
closes without a reset edge. -/
theorem stepRunsTheDecodedInstruction : Obligations.StepRunsTheDecodedInstruction := by
  intro s s' i hvalid hrst hdecode hexec
  have ha : acceptsOn Config.timing s.input = true := by rw [acceptsOn_of_rst_false hrst, hvalid]
  have hcycle : step s = .next (s'.closeCycle Config.timing) := clockCycle_of_decode ha hdecode hexec
  rw [exec_of_decode hdecode 0] at hexec
  cases hexec
  have hnoreset : resetsOn Config.timing (s.accept (respond 0 s.input.request)).input = false :=
    resetsOn_of_rst_false hrst
  rw [hcycle, State.closeCycle_of_not_resetsOn hnoreset]
  rfl

/-- Settles O37: a cycle without `req_valid` accepts nothing, and without `rst` it has no reset edge. -/
theorem idleCycleOnlyDeliversWhatIsDue : Obligations.IdleCycleOnlyDeliversWhatIsDue := by
  intro t s hvalid hrst
  rw [clockCycle_of_not_accepts (acceptsOn_of_reqValid_false hvalid),
    State.closeCycle_of_not_resetsOn (resetsOn_of_rst_false hrst)]

/-- Settles O41: the request of the cycle, if there is one, is alone in the pipeline and due at once. -/
theorem combinationalBlockAnswersInTheSameCycle :
    Obligations.CombinationalBlockAnswersInTheSameCycle := by
  intro s hempty
  obtain ⟨s1, h1, hc⟩ := clockCycle_takesIn ⟨0, false⟩ s
  refine ⟨_, hc, ?_⟩
  cases h1 with
  | accepted p ha hp =>
    rw [acceptsOn_combinational] at ha
    have halone : (s.accept p).inFlight = [⟨p, 0⟩] := by simp [hempty]
    have hrsp : ((s.accept p).closeCycle ⟨0, false⟩).rsp = some p := by
      simp [hempty, dueResponse]
    refine ⟨State.closeCycle_combinational_inFlight halone, ?_, fun p' hp' => ?_⟩
    · rw [State.rspValidPort, hrsp, ha, Option.isSome_some]
    · obtain rfl : p = p' := Option.some.inj (hrsp.symm.trans hp')
      exact hp
  | nothing ha =>
    rw [acceptsOn_combinational] at ha
    have hrsp : (s.closeCycle ⟨0, false⟩).rsp = none := by simp [hempty]
    refine ⟨by simp [hempty], ?_, fun p' hp' => ?_⟩
    · rw [State.rspValidPort, hrsp, ha, Option.isSome_none]
    · cases hrsp.symm.trans hp'

/-- Settles O43: after reset nothing is in flight, the powered-up pipeline is sound whatever it holds, and
neither state shows a response. -/
theorem resetAndPowerUpMeetTheInvariant : Obligations.ResetAndPowerUpMeetTheInvariant := fun t =>
  ⟨⟨.of_empty t rfl, .of_rsp_none rfl⟩, ⟨.powerUp t, .of_rsp_none rfl⟩⟩

end

section
/-! SUPPORT. Packing and unpacking are inverse (30_encoding.md R55, R56), and the mask of
30_encoding.md R58 leaves the operation code of a packed request. -/

namespace Sys2Proof

theorem toNat_append_eq_add {v w : Nat} (a : BitVec v) (b : BitVec w) :
    (a ++ b).toNat = a.toNat * 2 ^ w + b.toNat := by
  rw [BitVec.toNat_append, ← Nat.shiftLeft_add_eq_or_of_lt b.isLt, Nat.shiftLeft_eq]

/-- The packed request as a number: the six fields side by side. -/
theorem Request.toNat_pack (q : Request) :
    q.pack.toNat = q.op.toNat * 2 ^ 160 + q.seed.toNat * 2 ^ 128 + q.t.toNat * 2 ^ 96 +
      q.z.toNat * 2 ^ 64 + q.y.toNat * 2 ^ 32 + q.x.toNat := by
  change (q.op ++ q.seed ++ q.t ++ q.z ++ q.y ++ q.x : BitVec (4 + 32 + 32 + 32 + 32 + 32)).toNat = _
  simp only [toNat_append_eq_add]
  omega

/-- A field cut out of a word, from the word's number. -/
theorem extractLsb'_eq_of_toNat {v lo n : Nat} {w : BitVec v} {b : BitVec n}
    (h : w.toNat / 2 ^ lo % 2 ^ n = b.toNat) : w.extractLsb' lo n = b := by
  apply BitVec.eq_of_toNat_eq
  rw [BitVec.extractLsb'_toNat, Nat.shiftRight_eq_div_pow, h]

@[simp] theorem Request.unpack_pack (q : Request) : Request.unpack q.pack = q := by
  obtain ⟨op, seed, t, z, y, x⟩ := q
  have hseed := seed.isLt
  have ht := t.isLt
  have hz := z.isLt
  have hy := y.isLt
  have hx := x.isLt
  have hop := op.isLt
  simp only [Request.unpack, BitVec.extractLsb, Request.mk.injEq]
  refine ⟨?_, ?_, ?_, ?_, ?_, ?_⟩ <;>
    (apply extractLsb'_eq_of_toNat; rw [Request.toNat_pack]; dsimp only; omega)

@[simp] theorem Request.pack_unpack (w : BitVec 164) : (Request.unpack w).pack = w := by
  have hw := w.isLt
  apply BitVec.eq_of_toNat_eq
  rw [Request.toNat_pack]
  simp only [Request.unpack, BitVec.extractLsb_toNat, Nat.shiftRight_eq_div_pow]
  omega

theorem Response.pack_getLsbD (p : Response) (k : Nat) :
    p.pack.getLsbD k = if k < 32 then p.result.getLsbD k else (BitVec.ofBool p.err).getLsbD (k - 32) :=
  BitVec.getLsbD_append

theorem Response.pack_getLsbD_of_lt (p : Response) {k : Nat} (hk : k < 32) :
    p.pack.getLsbD k = p.result.getLsbD k := by
  rw [Response.pack_getLsbD, if_pos hk]

theorem Response.pack_getLsbD_err (p : Response) : p.pack.getLsbD 32 = p.err := by
  rw [Response.pack_getLsbD]
  simp

@[simp] theorem Response.unpack_pack (p : Response) : Response.unpack p.pack = p := by
  have hresult : p.pack.extractLsb 31 0 = p.result :=
    BitVec.eq_of_getLsbD_eq fun k hk => by
      rw [BitVec.getLsbD_extractLsb, Nat.zero_add, Response.pack_getLsbD_of_lt p hk]
      simp [hk]
  rw [Response.unpack, hresult, Response.pack_getLsbD_err]

@[simp] theorem Response.pack_unpack (w : BitVec 33) : (Response.unpack w).pack = w := by
  refine BitVec.eq_of_getLsbD_eq fun k hk => ?_
  obtain hlow | rfl : k < 32 ∨ k = 32 := by omega
  · rw [Response.pack_getLsbD_of_lt _ hlow]
    simp [Response.unpack, hlow]
  · exact Response.pack_getLsbD_err _

theorem Request.toNat_unpack_op (w : BitVec 164) :
    (Request.unpack w).op.toNat = w.toNat / 2 ^ 160 := by
  have hw := w.isLt
  simp only [Request.unpack, BitVec.extractLsb_toNat, Nat.shiftRight_eq_div_pow]
  omega

/-- A row's match as a number: the code in the top digit. -/
theorem toNat_match (c : BitVec 4) :
    (BitVec.setWidth 164 c <<< 160).toNat = c.toNat * 2 ^ 160 := by
  have hc := c.isLt
  simp only [BitVec.toNat_shiftLeft, BitVec.toNat_setWidth, Nat.shiftLeft_eq]
  omega

/-- A word under the mask as a number: its operation code in the top digit. -/
theorem toNat_and_mask (w : BitVec 164) :
    (w &&& 0xF0000000000000000000000000000000000000000#164).toNat =
      (Request.unpack w).op.toNat * 2 ^ 160 := by
  have hw := w.isLt
  have hmask : 0xF0000000000000000000000000000000000000000#164 = BitVec.allOnes 164 <<< 160 := by
    decide
  rw [hmask, ← BitVec.shiftLeft_ushiftRight]
  simp only [Request.toNat_unpack_op, BitVec.toNat_shiftLeft, BitVec.toNat_ushiftRight,
    Nat.shiftLeft_eq, Nat.shiftRight_eq_div_pow]
  omega

/-- A word under the mask equals a code's match exactly when the code is the word's operation code. -/
theorem and_mask_eq_match_iff (w : BitVec 164) (c : BitVec 4) :
    w &&& 0xF0000000000000000000000000000000000000000#164 = BitVec.setWidth 164 c <<< 160 ↔
      (Request.unpack w).op = c := by
  rw [← BitVec.toNat_inj, ← BitVec.toNat_inj, toNat_and_mask, toNat_match]
  omega

end Sys2Proof
end


section
/-! SUPPORT. The decoder as the inverse of the encoder: it reads an instruction back from its canonical
request, what it reads has the canonical form of the request for its encoding (30_encoding.md R60), and it
rejects exactly the reserved codes (R62). -/

namespace Sys2Proof.Machine

@[simp] theorem canonicalRequest_op (q : Request) : (canonicalRequest q).op = q.op := rfl

/-- The codes that `err` reports are those from 13 on. -/
theorem errOfCode_iff (op : BitVec 4) : errOfCode op = true ↔ 13 ≤ op.toNat := by
  revert op; decide

theorem decode_encodeRequest (i : Instr) : decode (encodeRequest i) = .ok i := by
  cases i <;> rfl

/-- What is decoded from a request is encoded by the request with its unread fields zero. -/
theorem encodeRequest_of_decode {q : Request} {i : Instr} (h : decode q = .ok i) :
    encodeRequest i = canonicalRequest q := by
  obtain ⟨op, seed, t, z, y, x⟩ := q
  unfold decode at h
  split at h
  case h_14 => cases h
  all_goals
    rename_i hop
    obtain ⟨-, rfl⟩ := BitVec.toNat_eq_nat.mp hop
    cases h
    simp [encodeRequest, canonicalRequest, readsY, readsZ, readsT, mapSelector, dimSelector]

/-- An instruction is encoded with the code it was decoded from. -/
theorem encodeRequest_op_of_decode {q : Request} {i : Instr} (h : decode q = .ok i) :
    (encodeRequest i).op = q.op := by
  rw [encodeRequest_of_decode h, canonicalRequest_op]

theorem decode_of_reserved {q : Request} (h : 13 ≤ q.op.toNat) :
    decode q = .error (.reservedCode q.op) := by
  unfold decode
  split
  case h_14 => rfl
  all_goals omega

/-- The decoder rejects a request exactly for a reserved code, and names it. -/
theorem decode_eq_error_iff {q : Request} {e : DecodeError} :
    decode q = .error e ↔ 13 ≤ q.op.toNat ∧ e = .reservedCode q.op := by
  refine ⟨fun h => ?_, ?_⟩
  · have hop := reserved_of_decode_error h
    rw [decode_of_reserved hop] at h
    cases h
    exact ⟨hop, rfl⟩
  · rintro ⟨hop, rfl⟩
    exact decode_of_reserved hop

theorem exists_decode_of_assigned {q : Request} (h : q.op.toNat < 13) : ∃ i, decode q = .ok i := by
  cases hd : decode q with
  | ok i => exact ⟨i, rfl⟩
  | error e => exact absurd (reserved_of_decode_error hd) (Nat.not_le.mpr h)

/-- The fields that are not read do not reach the decoder's answer. -/
theorem decode_canonicalRequest (q : Request) : decode (canonicalRequest q) = decode q := by
  cases hd : decode q with
  | ok i => rw [← encodeRequest_of_decode hd, decode_encodeRequest]
  | error e =>
    rw [decode_eq_error_iff] at hd ⊢
    exact hd

/-- The response depends on what the request decodes to, and on nothing else of it. -/
theorem respond_eq_of_decode_eq {q q' : Request} (h : decode q = decode q') (drawn : Word) :
    respond drawn q = respond drawn q' := by
  cases hd : decode q with
  | ok i =>
    have hexec := (exec_of_decode hd drawn State.reset).symm.trans
      (exec_of_decode (h ▸ hd) drawn State.reset)
    simpa [State.accept] using hexec
  | error e => rw [respond_of_decode_error hd, respond_of_decode_error (h ▸ hd)]

end Sys2Proof.Machine
end

section
/-! SUPPORT. The assembler (30_encoding.md R66 to R68): which lines it takes and the request it makes of
them; the codes its names stand for; and what its numerals denote. -/

namespace Sys2Proof.Machine

theorem mem_of_lookup_eq_some {α β : Type} [BEq α] [LawfulBEq α] {l : List (α × β)} {a : α} {b : β}
    (h : l.lookup a = some b) : (a, b) ∈ l := by
  obtain ⟨l₁, l₂, rfl, -⟩ := List.lookup_eq_some_iff.mp h
  simp

/-- Every name of an operation stands for an assigned code. -/
theorem codeOfName_assigned {name : String} {op : BitVec 4} (h : codeOfName name = some op) :
    op.toNat < 13 := by
  have hall : ∀ p ∈ mnemonicCodes ++ aliasCodes, p.2.toNat < 13 := by decide
  exact hall _ (mem_of_lookup_eq_some h)

/-- Every reserved-code name stands for a reserved code. -/
theorem errOfCode_of_reservedCodes {name : String} {op : BitVec 4}
    (h : reservedCodes.lookup name = some op) : errOfCode op = true := by
  have hall : ∀ p ∈ reservedCodes, errOfCode p.2 = true := by decide
  exact hall _ (mem_of_lookup_eq_some h)

/-- `y`, `z` and `t` are read where an operation takes at least 2, 3 and 4 coordinates. -/
theorem reads_eq_arity (op : BitVec 4) :
    readsY op = decide (2 ≤ arityOfCode op) ∧ readsZ op = decide (3 ≤ arityOfCode op) ∧
      readsT op = decide (4 ≤ arityOfCode op) := by
  revert op; decide

/-- What a request line has to meet (30_encoding.md R66, R67). -/
theorem wellFormed_request_iff {name : String} {coords : List Numeral} {seed : Numeral} :
    (AsmLine.request name coords seed).wellFormed = true ↔
      ∃ op, codeOfName name = some op ∧ coords.length = arityOfCode op ∧
        coords.all Numeral.coordInRange = true ∧ seed.seedInRange = true := by
  cases h : codeOfName name <;> simp [AsmLine.wellFormed, h, and_assoc]

/-- The request a well-formed line stands for: its code, its seed and its coordinates in their fields. -/
def lineRequest (op : BitVec 4) (coords : List Numeral) (seed : Numeral) : Request :=
  ⟨op, numeralWord seed, coordWord coords 3, coordWord coords 2, coordWord coords 1, coordWord coords 0⟩

theorem assemble_request {name : String} {coords : List Numeral} {seed : Numeral} {op : BitVec 4}
    (hname : codeOfName name = some op) (harity : coords.length = arityOfCode op)
    (hcoords : coords.all Numeral.coordInRange = true) (hseed : seed.seedInRange = true) :
    assemble (.request name coords seed) = .ok (lineRequest op coords seed) := by
  simp [assemble, hname, harity, hcoords, hseed, lineRequest]

theorem assemble_reserved {name : String} {op : BitVec 4} (h : reservedCodes.lookup name = some op) :
    assemble (.reserved name) = .ok ⟨op, 0, 0, 0, 0, 0⟩ := by
  simp only [assemble, h]

/-- The assembler refuses a line that is not well formed. -/
theorem assemble_of_not_wellFormed {l : AsmLine} (h : ¬ l.wellFormed = true) :
    ∃ e, assemble l = .error e := by
  cases l with
  | reserved name =>
    have hname : reservedCodes.lookup name = none := Option.not_isSome_iff_eq_none.mp h
    exact ⟨.unknownName, by simp only [assemble, hname]⟩
  | request name coords seed =>
    rw [wellFormed_request_iff] at h
    cases hname : codeOfName name with
    | none => exact ⟨.unknownName, by simp only [assemble, hname]⟩
    | some op =>
      simp only [assemble, hname]
      split_ifs with harity hcoords hseed
      · exact ⟨_, rfl⟩
      · exact ⟨_, rfl⟩
      · exact ⟨_, rfl⟩
      · exact absurd ⟨op, hname, by simpa using harity, by simpa using hcoords, by simpa using hseed⟩ h

theorem coordWord_of_length_le {coords : List Numeral} {k : Nat} (h : coords.length ≤ k) :
    coordWord coords k = 0 := by
  simp [coordWord, h]

/-- A line with as many coordinates as its operation reads gives a request in canonical form. -/
theorem canonicalRequest_lineRequest {op : BitVec 4} {coords : List Numeral} (seed : Numeral)
    (harity : coords.length = arityOfCode op) :
    canonicalRequest (lineRequest op coords seed) = lineRequest op coords seed := by
  obtain ⟨hy, hz, ht⟩ := reads_eq_arity op
  have hfield (k : Nat) : decide (k + 1 ≤ arityOfCode op) = true ∨ coordWord coords k = 0 :=
    (Nat.lt_or_ge k coords.length).imp (fun hlt => by simpa [← harity] using hlt)
      coordWord_of_length_le
  exact Laws.EncodeCanonical.canonical_of_zeros (hy ▸ hfield 1) (hz ▸ hfield 2) (ht ▸ hfield 3)

/-- A hexadecimal literal in its range is assembled to its own pattern. -/
theorem unsigned_numeralWord_hex {v : Nat} (h : v ≤ 0xFFFFFFFF) :
    (numeralWord (.hex v)).unsigned = v :=
  (BitVec.toNat_ofNat v 32).trans (Nat.mod_eq_of_lt (by omega))

/-- A coordinate numeral in its range denotes the word it is assembled to. -/
theorem coordDenotes_numeralWord {n : Numeral} (h : n.coordInRange = true) :
    coordDenotes n (numeralWord n) := by
  cases n with
  | dec v =>
    obtain ⟨hlo, hhi⟩ := of_decide_eq_true h
    exact BitVec.toInt_ofInt_eq_self (by decide) (by omega) (by omega)
  | hex v => exact unsigned_numeralWord_hex (of_decide_eq_true h)
  | int32Min => rfl
  | int32Max => rfl

/-- A seed numeral in its range denotes the word it is assembled to. -/
theorem seedDenotes_numeralWord {n : Numeral} (h : n.seedInRange = true) :
    seedDenotes n (numeralWord n) := by
  cases n with
  | dec v =>
    obtain ⟨hlo, hhi⟩ := of_decide_eq_true h
    simp only [seedDenotes, numeralWord, Word.unsigned, BitVec.toNat_ofInt]
    omega
  | hex v => exact unsigned_numeralWord_hex (of_decide_eq_true h)
  | int32Min => cases h
  | int32Max => cases h

/-- The assembled coordinates are what the line's numerals denote, zero where it gives none. -/
theorem fieldDenoted_coordWord {coords : List Numeral}
    (h : coords.all Numeral.coordInRange = true) (k : Nat) :
    fieldDenoted coords k (coordWord coords k) := by
  unfold fieldDenoted coordWord
  split
  · rename_i n hn
    exact coordDenotes_numeralWord (List.all_eq_true.mp h n (List.mem_of_getElem? hn))
  · rfl

end Sys2Proof.Machine
end

section
/-! The obligations of 30_encoding.md. -/

open Sys2Proof Sys2Proof.Machine

/-- Settles O3: unpacking undoes packing, and the decoder reads every canonical request back. -/
theorem decodeOfEncodeIsTheInstruction : Obligations.DecodeOfEncodeIsTheInstruction := by
  intro i
  rw [decodeWord, encode, Request.unpack_pack, decode_encodeRequest]

/-- Settles O4: what the unpacked word decodes to is encoded by that word's canonical request. -/
theorem encodeOfDecodeIsTheCanonicalWord : Obligations.EncodeOfDecodeIsTheCanonicalWord := by
  intro w i h
  rw [encode, encodeRequest_of_decode h]

/-- Settles O5: mask and match compare operation codes, and the decoder goes by the code alone. -/
theorem maskAndMatchSelectTheOperation : Obligations.MaskAndMatchSelectTheOperation := by
  intro w c
  rw [and_mask_eq_match_iff]
  split
  · rename_i hc
    constructor
    · rintro rfl
      obtain ⟨i, hi⟩ := exists_decode_of_assigned hc
      exact ⟨i, hi, encodeRequest_op_of_decode hi⟩
    · rintro ⟨i, hi, rfl⟩
      exact (encodeRequest_op_of_decode hi).symm
  · rename_i hc
    constructor
    · rintro rfl
      exact decode_of_reserved (Nat.not_lt.mp hc)
    · intro h
      obtain ⟨-, hcode⟩ := decode_eq_error_iff.mp h
      cases hcode
      rfl

/-- Settles O8: the decoder does not see the unread fields, and the response depends on what is decoded. -/
theorem unreadFieldsAreIgnored : Obligations.UnreadFieldsAreIgnored := by
  constructor
  · intro drawn q
    have hdecode := (decode_canonicalRequest q).symm
    exact ⟨respond_eq_of_decode_eq hdecode drawn, hdecode⟩
  · intro drawn q x y z t seed herr
    have hop := (errOfCode_iff q.op).mp herr
    have hdecode : decode q = decode ⟨q.op, seed, t, z, y, x⟩ := by
      rw [decode_of_reserved hop, decode_of_reserved (q := ⟨q.op, seed, t, z, y, x⟩) hop]
    exact ⟨respond_eq_of_decode_eq hdecode drawn, hdecode⟩

/-- Settles O9: a request line's coordinates are as many as its operation reads, so the unread fields are
zero; a reserved line has none. -/
theorem assemblerTakesExactlyTheWellFormedLines :
    Obligations.AssemblerTakesExactlyTheWellFormedLines := by
  intro l
  split
  · rename_i hwf
    cases l with
    | request name coords seed =>
      obtain ⟨op, hname, harity, hcoords, hseed⟩ := wellFormed_request_iff.mp hwf
      exact ⟨_, assemble_request hname harity hcoords hseed, canonicalRequest_lineRequest seed harity,
        hname, decide_eq_true (codeOfName_assigned hname)⟩
    | reserved name =>
      obtain ⟨op, hname⟩ := Option.isSome_iff_exists.mp hwf
      exact ⟨_, assemble_reserved hname,
        Laws.EncodeCanonical.canonical_of_zeros (.inr rfl) (.inr rfl) (.inr rfl),
        hname, errOfCode_of_reservedCodes hname⟩
  · rename_i hwf
    exact assemble_of_not_wellFormed hwf

/-- Settles O10: the assembled fields are what the numerals denote; the name lists are closed facts. -/
theorem assembledLineHasItsOperationAndValues :
    Obligations.AssembledLineHasItsOperationAndValues := by
  refine ⟨fun name coords seed hwf => ?_, by decide, by decide, by decide⟩
  obtain ⟨op, hname, harity, hcoords, hseed⟩ := wellFormed_request_iff.mp hwf
  have hfield := fieldDenoted_coordWord hcoords
  exact ⟨_, assemble_request hname harity hcoords hseed, hname, harity, hfield 0, hfield 1, hfield 2,
    hfield 3, seedDenotes_numeralWord hseed⟩

/-- Settles O11: a reserved code is rejected and answered with the draw; an assigned one decodes, and what
is decoded completes with the response of `respond`. -/
theorem decodeThenExecIsRespond : Obligations.DecodeThenExecIsRespond := by
  intro q s drawn
  split
  · rename_i herr
    have hdecode := decode_of_reserved ((errOfCode_iff q.op).mp herr)
    exact ⟨hdecode, respond_of_decode_error hdecode drawn⟩
  · rename_i herr
    obtain ⟨i, hi⟩ := exists_decode_of_assigned (Nat.not_le.mp (mt (errOfCode_iff q.op).mpr herr))
    exact ⟨i, hi, exec_of_decode hi drawn s⟩

/-- Settles O1: the bit positions are those of `extractLsb`. -/
theorem requestPackingKeepsEveryField : Obligations.RequestPackingKeepsEveryField := by
  refine ⟨Request.unpack_pack, Request.pack_unpack, fun w k => ?_⟩
  have hbits (hi lo : Nat) : (w.extractLsb hi lo).getLsbD k =
      (decide (k < hi - lo + 1) && w.getLsbD (lo + k)) := BitVec.getLsbD_extractLsb
  exact ⟨hbits 163 160, hbits 159 128, hbits 127 96, hbits 95 64, hbits 63 32,
    (hbits 31 0).trans (by rw [Nat.zero_add])⟩

/-- Settles O2: `err` is appended above the 32 bits of `result`. -/
theorem responsePackingKeepsEveryField : Obligations.ResponsePackingKeepsEveryField :=
  ⟨Response.unpack_pack, Response.pack_unpack, fun p =>
    ⟨Response.pack_getLsbD_err p, fun _ => Response.pack_getLsbD_of_lt p⟩⟩

/-- Settles O6: the decoder goes by the code alone, and each of the sixteen codes has its row. -/
theorem everyCodeDecodesToItsRow : Obligations.EveryCodeDecodesToItsRow := by
  intro x y z t seed
  refine ⟨?_, ?_, ?_, ?_, ?_, ?_, ?_, ?_, ?_, ?_, ?_, ?_, ?_, ?_, ?_, ?_⟩ <;> rfl

/-- Settles O7: the decoder evaluated on the five words. -/
theorem specWordsDecode : Obligations.SpecWordsDecode := by
  unfold Obligations.SpecWordsDecode
  decide

end

section
/-! SUPPORT. The scrambler's operators on bits and on unsigned readings (40_scrambler.md R81, R83, R84):
each constant's value, and a shift-XOR step as the exclusive or with a division by a power of two. -/

namespace Sys2Proof.Machine

@[simp] theorem toNat_scramblerK1 : scramblerK1.toNat = 0xd2a80a3f := rfl
@[simp] theorem toNat_scramblerK2 : scramblerK2.toNat = 0xa884f197 := rfl
@[simp] theorem toNat_scramblerK3 : scramblerK3.toNat = 0x6C736F4B := rfl
@[simp] theorem toNat_scramblerK4 : scramblerK4.toNat = 0xB79F3ABB := rfl
@[simp] theorem toNat_scramblerK5 : scramblerK5.toNat = 0x1b56c4f5 := rfl

/-- The logical shift of a shift-XOR step divides the unsigned reading. -/
theorem toNat_shiftXor (n : Nat) (b : Word) :
    (shiftXor n b).toNat = b.toNat ^^^ (b.toNat / 2 ^ n) := by
  rw [shiftXor, BitVec.toNat_xor, BitVec.toNat_ushiftRight, Nat.shiftRight_eq_div_pow]

/-- A shift-XOR step adds to each bit the one `n` places above it, which is 0 from bit 32 on. -/
theorem getLsbD_shiftXor (n i : Nat) (b : Word) :
    (shiftXor n b).getLsbD i = Bool.xor (b.getLsbD i) (b.getLsbD (i + n)) := by
  rw [shiftXor, BitVec.getLsbD_xor, BitVec.getLsbD_ushiftRight, Nat.add_comm]

end Sys2Proof.Machine
end

section
/-! The obligations of 40_scrambler.md. -/

open Sys2Proof Sys2Proof.Machine

/-- Settles O19: from the last step to the first, the unsigned reading of a step is the same step on the
unsigned reading of the step before it. -/
theorem scrambleIsTheTwelveSteps : Obligations.ScrambleIsTheTwelveSteps := by
  intro position seed
  rw [scramble,
    toNat_shiftXor, BitVec.toNat_mul, toNat_scramblerK5,
    toNat_shiftXor, BitVec.toNat_add, toNat_scramblerK4,
    toNat_shiftXor, BitVec.toNat_mul, toNat_scramblerK3,
    toNat_shiftXor, BitVec.toNat_add, toNat_scramblerK2,
    toNat_shiftXor, BitVec.toNat_add, BitVec.toNat_mul, toNat_scramblerK1]

/-- Settles O13: SCRAMBLE's case of what every meaning does. -/
theorem scrambleCompletes : Obligations.ScrambleCompletes := fun position seed =>
  exec_completes (.scramble position seed)

/-- Settles O20: the upper `n` bits have no bit `n` places above them. -/
theorem shiftXorBitByBit : Obligations.ShiftXorBitByBit := by
  intro n i b _ _ _
  rw [getLsbD_shiftXor]
  split
  · have habove : b.getLsbD (i + n) = false := BitVec.getLsbD_of_ge b (i + n) (by omega)
    rw [habove, Bool.xor_false]
  · rfl

end

section
/-! SUPPORT. The coordinate folder's readings (41_coordinate_folder.md R101 to R103): each constant's
value, each fold as one more product on the fold below it, and what such a product adds to either
reading. -/

namespace Sys2Proof.Machine

@[simp] theorem unsigned_foldP1 : foldP1.unsigned = 198491317 := rfl
@[simp] theorem unsigned_foldP2 : foldP2.unsigned = 6542989 := rfl
@[simp] theorem unsigned_foldP3 : foldP3.unsigned = 357239 := rfl

@[simp] theorem signed_foldP1 : foldP1.signed = 198491317 := rfl
@[simp] theorem signed_foldP2 : foldP2.signed = 6542989 := rfl
@[simp] theorem signed_foldP3 : foldP3.signed = 357239 := rfl

theorem fold2_eq_fold1_add (x y : Word) : fold2 x y = fold1 x + foldP1 * y := rfl

theorem fold3_eq_fold2_add (x y z : Word) : fold3 x y z = fold2 x y + foldP2 * z := rfl

theorem fold4_eq_fold3_add (x y z t : Word) : fold4 x y z t = fold3 x y z + foldP3 * t := rfl

theorem unsigned_eq_mod (b : Word) : b.unsigned = b.unsigned % 2 ^ 32 :=
  (Nat.mod_eq_of_lt b.isLt).symm

theorem signed_eq_bmod (b : Word) : b.signed = b.signed.bmod (2 ^ 32) :=
  (BitVec.toInt_bmod_cancel b).symm

/-- A word that reads as a wrapped sum reads, with one more product added, as the longer sum wrapped once. -/
theorem unsigned_add_mul {b : Word} {n : Nat} (h : b.unsigned = n % 2 ^ 32) (p c : Word) :
    (b + p * c).unsigned = (n + p.unsigned * c.unsigned) % 2 ^ 32 := by
  unfold Word.unsigned at *
  rw [BitVec.toNat_add, BitVec.toNat_mul, h, ← Nat.add_mod]

/-- The same law for the signed readings, wrapped to the signed range. -/
theorem signed_add_mul {b : Word} {n : Int} (h : b.signed = n.bmod (2 ^ 32)) (p c : Word) :
    (b + p * c).signed = (n + p.signed * c.signed).bmod (2 ^ 32) := by
  unfold Word.signed at *
  rw [BitVec.toInt_add, BitVec.toInt_mul, h, Int.bmod_add_bmod, Int.add_bmod_bmod]

theorem unsigned_fold2 (x y : Word) :
    (fold2 x y).unsigned = (x.unsigned + 198491317 * y.unsigned) % 2 ^ 32 := by
  rw [fold2_eq_fold1_add, unsigned_add_mul (unsigned_eq_mod (fold1 x)), unsigned_foldP1, fold1]

theorem unsigned_fold3 (x y z : Word) :
    (fold3 x y z).unsigned =
      (x.unsigned + 198491317 * y.unsigned + 6542989 * z.unsigned) % 2 ^ 32 := by
  rw [fold3_eq_fold2_add, unsigned_add_mul (unsigned_fold2 x y), unsigned_foldP2]

theorem unsigned_fold4 (x y z t : Word) :
    (fold4 x y z t).unsigned =
      (x.unsigned + 198491317 * y.unsigned + 6542989 * z.unsigned + 357239 * t.unsigned) % 2 ^ 32 := by
  rw [fold4_eq_fold3_add, unsigned_add_mul (unsigned_fold3 x y z), unsigned_foldP3]

theorem signed_fold2 (x y : Word) :
    (fold2 x y).signed = (x.signed + 198491317 * y.signed).bmod (2 ^ 32) := by
  rw [fold2_eq_fold1_add, signed_add_mul (signed_eq_bmod (fold1 x)), signed_foldP1, fold1]

theorem signed_fold3 (x y z : Word) :
    (fold3 x y z).signed =
      (x.signed + 198491317 * y.signed + 6542989 * z.signed).bmod (2 ^ 32) := by
  rw [fold3_eq_fold2_add, signed_add_mul (signed_fold2 x y), signed_foldP2]

theorem signed_fold4 (x y z t : Word) :
    (fold4 x y z t).signed =
      (x.signed + 198491317 * y.signed + 6542989 * z.signed + 357239 * t.signed).bmod (2 ^ 32) := by
  rw [fold4_eq_fold3_add, signed_add_mul (signed_fold3 x y z), signed_foldP3]

end Sys2Proof.Machine
end

section
/-! The obligations of 41_coordinate_folder.md. -/

open Sys2Proof Sys2Proof.Machine

/-- Settles O23: each fold adds one product to the fold below it, in both readings. -/
theorem foldsAreWrappingSums : Obligations.FoldsAreWrappingSums := fun x y z t =>
  ⟨rfl, signed_fold2 x y, signed_fold3 x y z, signed_fold4 x y z t,
    rfl, unsigned_fold2 x y, unsigned_fold3 x y z, unsigned_fold4 x y z t⟩

/-- Settles O14: the four NOISE_U cases of what every meaning does. -/
theorem noiseUCompletes : Obligations.NoiseUCompletes := fun x y z t seed s =>
  ⟨exec_completes (.noiseU1D x seed) s, exec_completes (.noiseU2D x y seed) s,
    exec_completes (.noiseU3D x y z seed) s, exec_completes (.noiseU4D x y z t seed) s⟩

end

section
/-! SUPPORT. Rounding to the nearest integer, ties to even: the step on `n` of 42_range_scaler.md R123,
over the rationals and, for a natural number over a power of two, as `rne_int` of R131 takes it. -/

namespace Sys2Proof.Machine

/-- The nearest integer, ties to the even one (42_range_scaler.md R123). -/
def roundHalfEven (q : ℚ) : ℤ :=
  if 1 / 2 < q - ⌊q⌋ ∨ (q - ⌊q⌋ = 1 / 2 ∧ ⌊q⌋ % 2 = 1) then ⌊q⌋ + 1 else ⌊q⌋

/-- Rounding goes down for a fraction of at most a half, and up for one of at least a half. -/
theorem roundHalfEven_cases (q : ℚ) :
    (roundHalfEven q = ⌊q⌋ ∧ q - ⌊q⌋ ≤ 1 / 2) ∨ (roundHalfEven q = ⌊q⌋ + 1 ∧ 1 / 2 ≤ q - ⌊q⌋) := by
  unfold roundHalfEven
  split
  · next h => exact .inr ⟨rfl, h.elim le_of_lt fun h => h.1.ge⟩
  · next h => exact .inl ⟨rfl, not_lt.mp fun hlt => h (.inl hlt)⟩

theorem abs_sub_roundHalfEven_le (q : ℚ) : |q - roundHalfEven q| ≤ 1 / 2 := by
  have hlt := Int.lt_floor_add_one q
  have hle := Int.floor_le q
  rcases roundHalfEven_cases q with ⟨h, hr⟩ | ⟨h, hr⟩ <;>
  · rw [h, abs_le]
    push_cast
    constructor <;> linarith

/-- An integer nearer than a half is the one rounded to. -/
theorem roundHalfEven_eq_of_abs_lt {q : ℚ} {n : ℤ} (h : |q - n| < 1 / 2) : roundHalfEven q = n := by
  have hle := abs_sub_roundHalfEven_le q
  have hdist : |((roundHalfEven q - n : ℤ) : ℚ)| < 1 := by
    push_cast
    calc |(roundHalfEven q : ℚ) - n| ≤ |roundHalfEven q - q| + |q - n| := abs_sub_le _ _ _
      _ < 1 := by rw [abs_sub_comm]; linarith
  have hzero : |roundHalfEven q - n| < 1 := by exact_mod_cast hdist
  exact sub_eq_zero.mp (Int.abs_lt_one_iff.mp hzero)

@[simp] theorem roundHalfEven_intCast (n : ℤ) : roundHalfEven n = n :=
  roundHalfEven_eq_of_abs_lt (by simp)

@[simp] theorem roundHalfEven_natCast (n : ℕ) : roundHalfEven n = n :=
  roundHalfEven_intCast n

theorem roundHalfEven_mono : Monotone roundHalfEven := by
  intro q q' hq
  rcases (Int.floor_le_floor hq).eq_or_lt with hfloor | hfloor
  · have hup : (1 / 2 < q - ⌊q⌋ ∨ (q - ⌊q⌋ = 1 / 2 ∧ ⌊q⌋ % 2 = 1)) →
        1 / 2 < q' - ⌊q'⌋ ∨ (q' - ⌊q'⌋ = 1 / 2 ∧ ⌊q'⌋ % 2 = 1) := by
      rw [← hfloor]
      rintro (h | ⟨h, hodd⟩)
      · exact .inl (by linarith)
      · rcases (sub_le_sub_right hq (⌊q⌋ : ℚ)).eq_or_lt with heq | hlt
        · exact .inr ⟨heq ▸ h, hodd⟩
        · exact .inl (h ▸ hlt)
    unfold roundHalfEven
    split
    · next h => rw [if_pos (hup h), hfloor]
    · split <;> omega
  · rcases roundHalfEven_cases q with ⟨h, -⟩ | ⟨h, -⟩ <;>
    rcases roundHalfEven_cases q' with ⟨h', -⟩ | ⟨h', -⟩ <;> omega

/-- The quotient of `W` by `2 ^ sh`, to nearest, ties to even, as `rne_int` takes it
(42_range_scaler.md R131). -/
def roundedQuotient (W sh : Nat) : Nat :=
  if 2 ^ (sh - 1) < W % 2 ^ sh ∨ (W % 2 ^ sh = 2 ^ (sh - 1) ∧ W / 2 ^ sh % 2 = 1) then
    W / 2 ^ sh + 1
  else W / 2 ^ sh

theorem roundHalfEven_natCast_div (W d : Nat) :
    roundHalfEven ((W : ℚ) / 2 ^ (d + 1)) = roundedQuotient W (d + 1) := by
  have hfloor : ⌊(W : ℚ) / 2 ^ (d + 1)⌋ = (W / 2 ^ (d + 1) : Nat) := by
    exact_mod_cast Rat.floor_natCast_div_natCast W (2 ^ (d + 1))
  have hrest : (W : ℚ) / 2 ^ (d + 1) - ⌊(W : ℚ) / 2 ^ (d + 1)⌋ = (W % 2 ^ (d + 1) : Nat) / 2 ^ (d + 1) := by
    have := Int.fract_div_natCast_eq_div_natCast_mod (k := ℚ) (m := W) (n := 2 ^ (d + 1))
    push_cast at this ⊢
    exact this
  have hhalf : (1 / 2 : ℚ) = (2 ^ d : Nat) / 2 ^ (d + 1) := by
    push_cast
    rw [pow_succ]
    field_simp
  have hpos : (0 : ℚ) < 2 ^ (d + 1) := by positivity
  have hcond : (1 / 2 < (W : ℚ) / 2 ^ (d + 1) - ⌊(W : ℚ) / 2 ^ (d + 1)⌋ ∨
      ((W : ℚ) / 2 ^ (d + 1) - ⌊(W : ℚ) / 2 ^ (d + 1)⌋ = 1 / 2 ∧ ⌊(W : ℚ) / 2 ^ (d + 1)⌋ % 2 = 1)) ↔
      2 ^ d < W % 2 ^ (d + 1) ∨ (W % 2 ^ (d + 1) = 2 ^ d ∧ W / 2 ^ (d + 1) % 2 = 1) := by
    rw [hrest, hhalf, hfloor, div_lt_div_iff_of_pos_right hpos, div_left_inj' hpos.ne', Nat.cast_lt,
      Nat.cast_inj]
    norm_cast
  rw [roundHalfEven, if_congr hcond rfl rfl, hfloor, roundedQuotient, Nat.add_sub_cancel,
    Nat.cast_ite, Nat.cast_succ]

/-- A number of at least `2 ^ p` lies between two neighbouring powers of two. -/
theorem exists_binade {W p : Nat} (h : 2 ^ p ≤ W) : ∃ d, 2 ^ (p + d) ≤ W ∧ W < 2 ^ (p + d + 1) := by
  have hW : W ≠ 0 := (Nat.two_pow_pos p |>.trans_le h).ne'
  obtain ⟨d, hd⟩ := Nat.exists_eq_add_of_le ((Nat.le_log2 hW).mpr h)
  exact ⟨d, hd ▸ Nat.log2_self_le hW, hd ▸ Nat.lt_log2_self⟩

theorem rneInt_of_lt {W p : Nat} (h : W < 2 ^ p) : rneInt W p = W := if_pos h

/-- A number with `d + 1` bits more than `p` has them rounded off its quotient. -/
theorem rneInt_of_binade {W p d : Nat} (hlo : 2 ^ (p + d) ≤ W) (hhi : W < 2 ^ (p + d + 1)) :
    rneInt W p = roundedQuotient W (d + 1) * 2 ^ (d + 1) := by
  have hp : 2 ^ p ≤ W := (Nat.pow_le_pow_right two_pos (Nat.le_add_right p d)).trans hlo
  have hlog : W.log2 = p + d := (Nat.log2_eq_iff (Nat.two_pow_pos p |>.trans_le hp).ne').mpr ⟨hlo, hhi⟩
  have hsh : bitLen W - p = d + 1 := by rw [bitLen, hlog]; omega
  have hrest : W - (W >>> (d + 1)) <<< (d + 1) = W % 2 ^ (d + 1) := by
    rw [Nat.shiftLeft_eq, Nat.shiftRight_eq_div_pow, Nat.mod_eq_sub_div_mul]
  rw [rneInt, if_neg (not_lt.mpr hp)]
  dsimp only
  rw [hsh, hrest, Nat.shiftLeft_eq, Nat.shiftRight_eq_div_pow, roundedQuotient]

/-- Rounding goes down for a rest of at most a half, and up for one of at least a half. -/
theorem roundedQuotient_cases (W d : Nat) :
    (roundedQuotient W (d + 1) = W / 2 ^ (d + 1) ∧ W % 2 ^ (d + 1) ≤ 2 ^ d) ∨
    (roundedQuotient W (d + 1) = W / 2 ^ (d + 1) + 1 ∧ 2 ^ d ≤ W % 2 ^ (d + 1)) := by
  unfold roundedQuotient
  rw [Nat.add_sub_cancel]
  split <;> omega

theorem roundedQuotient_even_of_tie {W d : Nat} (h : W % 2 ^ (d + 1) = 2 ^ d) :
    roundedQuotient W (d + 1) % 2 = 0 := by
  unfold roundedQuotient
  rw [Nat.add_sub_cancel]
  split <;> omega

/-- Between two neighbouring multiples of `2 ^ sh` with `p`-bit quotients there is no number with at most
`p` significant bits. -/
theorem le_or_le_of_significant_bits {p q m : Nat} (hq : 2 ^ p ≤ q) (hm : m ≤ 2 ^ (p + 1)) (k sh : Nat) :
    m * 2 ^ k ≤ q * 2 ^ sh ∨ (q + 1) * 2 ^ sh ≤ m * 2 ^ k := by
  rcases Nat.lt_or_ge k sh with hk | hk
  · left
    calc m * 2 ^ k ≤ 2 ^ (p + 1) * 2 ^ k := Nat.mul_le_mul_right _ hm
      _ = 2 ^ p * 2 ^ (k + 1) := by ring
      _ ≤ q * 2 ^ sh := Nat.mul_le_mul hq (Nat.pow_le_pow_right two_pos hk)
  · obtain ⟨d, rfl⟩ := Nat.exists_eq_add_of_le hk
    rw [show m * 2 ^ (sh + d) = m * 2 ^ d * 2 ^ sh by ring]
    exact (Nat.lt_or_ge q (m * 2 ^ d)).symm.imp (Nat.mul_le_mul_right _) (Nat.mul_le_mul_right _)

/-- A number of `p` bits and `d + 1` more is no nearer to any number on the far side of the two multiples
of `2 ^ (d + 1)` around it than to the one `rne_int` takes. -/
theorem dist_roundedQuotient_le {W d x : Nat}
    (hx : x ≤ W / 2 ^ (d + 1) * 2 ^ (d + 1) ∨ (W / 2 ^ (d + 1) + 1) * 2 ^ (d + 1) ≤ x) :
    Nat.dist W (roundedQuotient W (d + 1) * 2 ^ (d + 1)) ≤ Nat.dist W x := by
  have hW := Nat.div_add_mod' W (2 ^ (d + 1))
  have hlt := Nat.mod_lt W (Nat.two_pow_pos (d + 1))
  rw [Nat.succ_mul] at hx
  unfold Nat.dist
  rcases roundedQuotient_cases W d with ⟨h, hr⟩ | ⟨h, hr⟩
  · rw [h]; omega
  · rw [h, Nat.succ_mul]; omega

/-- The significand of the result has at most `p` bits, or is `2 ^ p`. -/
theorem roundedQuotient_le {W p d : Nat} (hhi : W < 2 ^ (p + d + 1)) :
    roundedQuotient W (d + 1) ≤ 2 ^ p := by
  have hq : W / 2 ^ (d + 1) < 2 ^ p :=
    Nat.div_lt_of_lt_mul (by rwa [← pow_add, Nat.add_comm (d + 1) p])
  rcases roundedQuotient_cases W d with ⟨h, -⟩ | ⟨h, -⟩ <;> omega

theorem rneInt_tie {W p sh : Nat} (hlo : 2 ^ (p + sh) ≤ W) (hhi : W < 2 ^ (p + sh + 1))
    (htie : W % 2 ^ (sh + 1) = 2 ^ sh) : rneInt W p / 2 ^ (sh + 1) % 2 = 0 := by
  rw [rneInt_of_binade hlo hhi, Nat.mul_div_cancel _ (Nat.two_pow_pos (sh + 1)),
    roundedQuotient_even_of_tie htie]

theorem rneInt_representable (W p : Nat) : ∃ m k, m ≤ 2 ^ p ∧ rneInt W p = m * 2 ^ k := by
  rcases Nat.lt_or_ge W (2 ^ p) with hlt | hge
  · exact ⟨W, 0, hlt.le, by rw [rneInt_of_lt hlt, pow_zero, Nat.mul_one]⟩
  · obtain ⟨d, hlo, hhi⟩ := exists_binade hge
    exact ⟨_, _, roundedQuotient_le hhi, rneInt_of_binade hlo hhi⟩

theorem rneInt_nearest {W p m : Nat} (hp : 0 < p) (hm : m ≤ 2 ^ p) (k : Nat) :
    Nat.dist W (rneInt W p) ≤ Nat.dist W (m * 2 ^ k) := by
  rcases Nat.lt_or_ge W (2 ^ p) with hlt | hge
  · rw [rneInt_of_lt hlt, Nat.dist_self]
    exact Nat.zero_le _
  · obtain ⟨d, hlo, hhi⟩ := exists_binade hge
    obtain ⟨p, rfl⟩ := Nat.exists_eq_succ_of_ne_zero hp.ne'
    have hq : 2 ^ p ≤ W / 2 ^ (d + 1) := by
      rw [Nat.le_div_iff_mul_le (Nat.two_pow_pos _), ← pow_add, ← Nat.add_assoc, Nat.add_right_comm]
      exact hlo
    rw [rneInt_of_binade hlo hhi]
    exact dist_roundedQuotient_le (le_or_le_of_significant_bits hq hm k (d + 1))

end Sys2Proof.Machine
end

section
/-! SUPPORT. The rounding of rationals of 42_range_scaler.md R123: within one binade it is a rounding to
an integer, it is symmetric and monotone, and on a natural number times a power of two it is `rne_int`. -/

namespace Sys2Proof.Machine

@[simp] theorem flRat_zero (p : Nat) : flRat p 0 = 0 := if_pos rfl

/-- `fl_p` of a nonzero number: its sign, the rounded integer and the unit in the last place. -/
theorem flRat_of_ne_zero (p : Nat) {v : ℚ} (hv : v ≠ 0) :
    flRat p v = (if v < 0 then -1 else 1) *
      roundHalfEven (|v| / 2 ^ (Int.log 2 |v| - p + 1)) * 2 ^ (Int.log 2 |v| - p + 1) :=
  if_neg hv

theorem flRat_neg (p : Nat) (v : ℚ) : flRat p (-v) = -flRat p v := by
  rcases lt_trichotomy v 0 with h | rfl | h
  · simp [flRat_of_ne_zero, h, h.ne, h.not_gt]
  · simp
  · simp [flRat_of_ne_zero, h, h.ne', h.not_gt]

theorem log_eq_of_binade {e : ℤ} {v : ℚ} (hlo : 2 ^ e ≤ v) (hhi : v < 2 ^ (e + 1)) :
    Int.log 2 v = e := by
  have hv : 0 < v := (zpow_pos two_pos e).trans_le hlo
  have hge : e ≤ Int.log 2 v := (Int.zpow_le_iff_le_log Nat.one_lt_two hv).mp (by exact_mod_cast hlo)
  have hlt : Int.log 2 v < e + 1 := (Int.lt_zpow_iff_log_lt Nat.one_lt_two hv).mp (by exact_mod_cast hhi)
  omega

/-- In a binade, `fl_p` rounds to an integer number of units in the last place. -/
theorem flRat_of_binade {e : ℤ} {v : ℚ} (p : Nat) (hlo : 2 ^ e ≤ v) (hhi : v < 2 ^ (e + 1)) :
    flRat p v = roundHalfEven (v / 2 ^ (e - p + 1)) * 2 ^ (e - p + 1) := by
  have hv : 0 < v := (zpow_pos two_pos e).trans_le hlo
  have hlog : Int.log 2 |v| = e := by rw [abs_of_pos hv, log_eq_of_binade hlo hhi]
  rw [flRat_of_ne_zero p hv.ne', hlog, abs_of_pos hv, if_neg hv.not_gt, one_mul]

/-- What is less than half a unit in the last place from a multiple of it is rounded to that multiple. -/
theorem flRat_eq_of_abs_lt {e n : ℤ} {v : ℚ} {p : Nat} (hlo : 2 ^ e ≤ v) (hhi : v < 2 ^ (e + 1))
    (hn : |v / 2 ^ (e - p + 1) - n| < 1 / 2) : flRat p v = n * 2 ^ (e - p + 1) := by
  rw [flRat_of_binade p hlo hhi, roundHalfEven_eq_of_abs_lt hn]

/-- The lower end of a binade in units of its last place. -/
theorem two_zpow_eq_units (p : Nat) (e : ℤ) :
    (2 : ℚ) ^ e = (2 ^ p : Nat) * 2 ^ (e - (p + 1 : Nat) + 1) := by
  push_cast
  rw [← zpow_natCast, ← zpow_add₀ two_ne_zero]
  congr 1
  ring

/-- The upper end of a binade in units of its last place. -/
theorem two_zpow_succ_eq_units (p : Nat) (e : ℤ) :
    (2 : ℚ) ^ (e + 1) = (2 ^ (p + 1) : Nat) * 2 ^ (e - (p + 1 : Nat) + 1) := by
  rw [zpow_add_one₀ two_ne_zero, two_zpow_eq_units p e, pow_succ]
  push_cast
  ring

/-- In a binade, rounding to `p + 1` bits takes a significand from `2 ^ p` to `2 ^ (p + 1)`. -/
theorem roundHalfEven_mem_of_binade {e : ℤ} {v : ℚ} (p : Nat) (hlo : 2 ^ e ≤ v) (hhi : v < 2 ^ (e + 1)) :
    ((2 ^ p : Nat) : ℤ) ≤ roundHalfEven (v / 2 ^ (e - (p + 1 : Nat) + 1)) ∧
      roundHalfEven (v / 2 ^ (e - (p + 1 : Nat) + 1)) ≤ (2 ^ (p + 1) : Nat) := by
  have hulp : (0 : ℚ) < 2 ^ (e - (p + 1 : Nat) + 1) := zpow_pos two_pos _
  rw [← roundHalfEven_natCast, ← roundHalfEven_natCast (2 ^ (p + 1))]
  exact ⟨roundHalfEven_mono ((le_div_iff₀ hulp).mpr (two_zpow_eq_units p e ▸ hlo)),
    roundHalfEven_mono ((div_le_iff₀ hulp).mpr (two_zpow_succ_eq_units p e ▸ hhi.le))⟩

/-- Rounding with at least one bit leaves a number between the ends of its binade. -/
theorem flRat_mem_binade {e : ℤ} {v : ℚ} {p : Nat} (hp : 0 < p) (hlo : 2 ^ e ≤ v)
    (hhi : v < 2 ^ (e + 1)) : 2 ^ e ≤ flRat p v ∧ flRat p v ≤ 2 ^ (e + 1) := by
  obtain ⟨p, rfl⟩ := Nat.exists_eq_succ_of_ne_zero hp.ne'
  have hulp : (0 : ℚ) ≤ 2 ^ (e - (p + 1 : Nat) + 1) := (zpow_pos two_pos _).le
  obtain ⟨hge, hle⟩ := roundHalfEven_mem_of_binade p hlo hhi
  rw [flRat_of_binade _ hlo hhi, two_zpow_eq_units p e, two_zpow_succ_eq_units p e]
  exact ⟨mul_le_mul_of_nonneg_right (by exact_mod_cast hge) hulp,
    mul_le_mul_of_nonneg_right (by exact_mod_cast hle) hulp⟩

theorem flRat_pos {v : ℚ} {p : Nat} (hp : 0 < p) (hv : 0 < v) : 0 < flRat p v := by
  obtain ⟨e, hlo, hhi⟩ := exists_mem_Ico_zpow hv one_lt_two
  exact (zpow_pos two_pos e).trans_le (flRat_mem_binade hp hlo hhi).1

/-- Two positive numbers of one binade round as their quotients by its unit; of two binades, the end of
the lower one lies between the results. -/
theorem flRat_mono_of_pos {v w : ℚ} {p : Nat} (hp : 0 < p) (hv : 0 < v) (hvw : v ≤ w) :
    flRat p v ≤ flRat p w := by
  obtain ⟨e, hlo, hhi⟩ := exists_mem_Ico_zpow hv one_lt_two
  obtain ⟨f, hlo', hhi'⟩ := exists_mem_Ico_zpow (hv.trans_le hvw) one_lt_two
  have hef : e < f + 1 := (zpow_lt_zpow_iff_right₀ one_lt_two).mp (hlo.trans_lt (hvw.trans_lt hhi'))
  rcases (Int.lt_add_one_iff.mp hef).eq_or_lt with rfl | hlt
  · have hulp : (0 : ℚ) < 2 ^ (e - p + 1) := zpow_pos two_pos _
    have hq := roundHalfEven_mono (div_le_div_of_nonneg_right hvw hulp.le)
    rw [flRat_of_binade p hlo hhi, flRat_of_binade p hlo' hhi']
    exact mul_le_mul_of_nonneg_right (by exact_mod_cast hq) hulp.le
  · calc flRat p v ≤ 2 ^ (e + 1) := (flRat_mem_binade hp hlo hhi).2
      _ ≤ 2 ^ f := zpow_le_zpow_right₀ one_le_two hlt
      _ ≤ flRat p w := (flRat_mem_binade hp hlo' hhi').1

theorem flRat_nonneg {v : ℚ} {p : Nat} (hp : 0 < p) (hv : 0 ≤ v) : 0 ≤ flRat p v := by
  rcases hv.eq_or_lt with rfl | hv
  · simp
  · exact (flRat_pos hp hv).le

theorem flRat_mono {p : Nat} (hp : 0 < p) : Monotone (flRat p) := by
  intro v w hvw
  rcases lt_or_ge 0 v with hv | hv
  · exact flRat_mono_of_pos hp hv hvw
  · have hv' : flRat p v ≤ 0 := by
      have := flRat_nonneg hp (neg_nonneg.mpr hv)
      rw [flRat_neg] at this
      linarith
    rcases lt_or_ge w 0 with hw | hw
    · have := flRat_mono_of_pos hp (neg_pos.mpr hw) (neg_le_neg hvw)
      rw [flRat_neg, flRat_neg] at this
      linarith
    · exact hv'.trans (flRat_nonneg hp hw)

/-- The binade of a positive integer times a power of two. -/
theorem natCast_mul_zpow_mem_binade {W : Nat} (hW : W ≠ 0) (k : ℤ) :
    (2 : ℚ) ^ (W.log2 + k) ≤ W * 2 ^ k ∧ (W : ℚ) * 2 ^ k < 2 ^ (W.log2 + k + 1) := by
  have hlo : ((2 ^ W.log2 : Nat) : ℚ) ≤ W := Nat.cast_le.mpr (Nat.log2_self_le hW)
  have hhi : (W : ℚ) < (2 ^ (W.log2 + 1) : Nat) := Nat.cast_lt.mpr Nat.lt_log2_self
  have hk : (0 : ℚ) < 2 ^ k := zpow_pos two_pos k
  rw [add_right_comm, zpow_add₀ two_ne_zero, zpow_add₀ two_ne_zero]
  constructor
  · exact mul_le_mul_of_nonneg_right (by exact_mod_cast hlo) hk.le
  · exact mul_lt_mul_of_pos_right (by exact_mod_cast hhi) hk

/-- `fl_p` on an integer times a power of two is `rne_int` times that power (42_range_scaler.md R131). -/
theorem flRat_natCast_mul_zpow (p W : Nat) (k : ℤ) :
    flRat p (W * 2 ^ k) = rneInt W p * 2 ^ k := by
  rcases eq_or_ne W 0 with rfl | hW
  · simp [rneInt_of_lt]
  obtain ⟨hlo, hhi⟩ := natCast_mul_zpow_mem_binade hW k
  rw [flRat_of_binade p hlo hhi]
  rcases Nat.lt_or_ge W (2 ^ p) with hlt | hge
  · obtain ⟨d, rfl⟩ := Nat.exists_eq_add_of_lt ((Nat.log2_lt hW).mpr hlt)
    have hulp : (2 : ℚ) ^ k = (2 ^ d : Nat) * 2 ^ (W.log2 + k - (W.log2 + d + 1 : Nat) + 1) := by
      push_cast
      rw [← zpow_natCast, ← zpow_add₀ two_ne_zero]
      congr 1
      ring
    rw [rneInt_of_lt hlt, hulp, ← mul_assoc, mul_div_cancel_right₀ _ (zpow_ne_zero _ two_ne_zero),
      ← Nat.cast_mul, roundHalfEven_natCast, Int.cast_natCast]
  · obtain ⟨d, hd⟩ := exists_binade hge
    have hlog : W.log2 = p + d := (Nat.log2_eq_iff hW).mpr hd
    have hulp : (2 : ℚ) ^ (W.log2 + k - p + 1) = 2 ^ (d + 1) * 2 ^ k := by
      rw [← zpow_natCast, ← zpow_add₀ two_ne_zero, hlog]
      congr 1
      push_cast
      ring
    rw [hulp, mul_div_mul_right _ _ (zpow_ne_zero k two_ne_zero), roundHalfEven_natCast_div,
      rneInt_of_binade hd.1 hd.2]
    push_cast
    ring

/-- A power of two is kept by rounding with at least one bit. -/
theorem flRat_zpow {p : Nat} (hp : 0 < p) (k : ℤ) : flRat p (2 ^ k) = 2 ^ k := by
  have h := flRat_natCast_mul_zpow p 1 k
  rwa [rneInt_of_lt (Nat.one_lt_two_pow hp.ne'), Nat.cast_one, one_mul] at h

/-- Rounding keeps a magnitude between two powers of two. -/
theorem abs_flRat_mem {v : ℚ} {p : Nat} {a b : ℤ} (hp : 0 < p) (ha : 2 ^ a ≤ |v|) (hb : |v| ≤ 2 ^ b) :
    2 ^ a ≤ |flRat p v| ∧ |flRat p v| ≤ 2 ^ b := by
  have habs : |flRat p v| = flRat p |v| := by
    rcases abs_cases v with ⟨h, hv⟩ | ⟨h, hv⟩
    · rw [h, abs_of_nonneg (flRat_nonneg hp hv)]
    · have hneg := flRat_nonneg hp (neg_nonneg.mpr hv.le)
      rw [h, ← abs_neg, ← flRat_neg, abs_of_nonneg hneg]
  rw [habs, ← flRat_zpow hp a, ← flRat_zpow hp b]
  exact ⟨flRat_mono hp ha, flRat_mono hp hb⟩

end Sys2Proof.Machine
end

section
/-! SUPPORT. The binary32 encoding (42_range_scaler.md R122): its three fields, the number a pattern
encodes, and that `enc32_int` of R131 is `enc32` of the number it stands for. -/

namespace Sys2Proof.Machine

/-- The factor a sign bit stands for. -/
def signFactor (neg : Bool) : ℚ := if neg then -1 else 1

@[simp] theorem signFactor_false : signFactor false = 1 := rfl
@[simp] theorem signFactor_true : signFactor true = -1 := rfl

theorem abs_signFactor_mul (neg : Bool) (v : ℚ) : |signFactor neg * v| = |v| := by
  cases neg <;> simp

theorem signFactor_mul_abs (v : ℚ) : signFactor (decide (v < 0)) * |v| = v := by
  rcases lt_or_ge v 0 with h | h
  · simp [h, abs_of_neg]
  · simp [h.not_gt, abs_of_nonneg h]

theorem decide_signFactor_mul_lt_zero (neg : Bool) {v : ℚ} (hv : 0 < v) :
    decide (signFactor neg * v < 0) = neg := by
  cases neg
  · simpa using hv.le
  · simpa using hv

theorem flRat_signFactor_mul (p : Nat) (neg : Bool) (v : ℚ) :
    flRat p (signFactor neg * v) = signFactor neg * flRat p v := by
  cases neg
  · simp
  · simp [flRat_neg]

/-- The binary32 word of a sign, an exponent field and a fraction field. -/
def binary32 (neg : Bool) (E : BitVec 8) (F : BitVec 23) : Word := BitVec.ofBool neg ++ E ++ F

theorem toNat_binary32 (neg : Bool) (E : BitVec 8) (F : BitVec 23) :
    (binary32 neg E F).toNat = neg.toNat * 2 ^ 31 + E.toNat * 2 ^ 23 + F.toNat := by
  change (BitVec.ofBool neg ++ E ++ F : BitVec (1 + 8 + 23)).toNat = _
  rw [toNat_append_eq_add, toNat_append_eq_add, BitVec.toNat_ofBool]
  ring

@[simp] theorem binary32_sign (neg : Bool) (E : BitVec 8) (F : BitVec 23) :
    (binary32 neg E F).getLsbD 31 = neg := by
  change (BitVec.ofBool neg ++ E ++ F : BitVec (1 + 8 + 23)).getLsbD 31 = neg
  rw [BitVec.getLsbD_append, if_neg (by decide), BitVec.getLsbD_append, if_neg (by decide)]
  exact BitVec.getLsbD_ofBool neg 0

@[simp] theorem binary32_exponent (neg : Bool) (E : BitVec 8) (F : BitVec 23) :
    (binary32 neg E F).extractLsb 30 23 = E := by
  have hE := E.isLt
  have hF := F.isLt
  apply extractLsb'_eq_of_toNat
  rw [toNat_binary32]
  omega

@[simp] theorem binary32_fraction (neg : Bool) (E : BitVec 8) (F : BitVec 23) :
    (binary32 neg E F).extractLsb 22 0 = F := by
  have hF := F.isLt
  apply extractLsb'_eq_of_toNat
  rw [toNat_binary32]
  omega

/-- Changing the sign changes bit 31 alone. -/
theorem binary32_not (neg : Bool) (E : BitVec 8) (F : BitVec 23) :
    binary32 (!neg) E F = binary32 neg E F ^^^ 0x80000000#32 := by
  change (BitVec.ofBool (!neg) ++ E ++ F : BitVec (1 + 8 + 23)) =
    (BitVec.ofBool neg ++ E ++ F) ^^^ (BitVec.ofBool true ++ 0#8 ++ 0#23)
  rw [BitVec.xor_append, BitVec.xor_append, BitVec.ofBool_xor_ofBool]
  simp

/-- A pattern with a normal exponent field encodes the number of 42_range_scaler.md R122. -/
theorem valueOf32_binary32 (neg : Bool) {E : BitVec 8} (F : BitVec 23) (hpos : 0 < E.toNat)
    (hlt : E.toNat < 255) :
    valueOf32 (binary32 neg E F) =
      some (signFactor neg * 2 ^ ((E.toNat : ℤ) - 127) * (1 + (F.toNat : ℚ) / 2 ^ 23)) := by
  have hne : binary32 neg E F ≠ 0 := by
    intro h
    have hE := binary32_exponent neg E F
    rw [h] at hE
    subst hE
    exact absurd hpos (by decide)
  unfold valueOf32
  simp only [binary32_sign, binary32_exponent, binary32_fraction, if_neg hne, hpos, hlt, and_self,
    if_true, signFactor]

@[simp] theorem enc32Rat_zero : enc32Rat 0 = 0 := if_pos rfl

/-- In a binade, `enc32` gives its exponent and the integer significand without the leading bit. -/
theorem enc32Rat_of_binade (neg : Bool) {e : ℤ} {v : ℚ} (hlo : 2 ^ e ≤ v) (hhi : v < 2 ^ (e + 1)) :
    enc32Rat (signFactor neg * v) =
      binary32 neg (BitVec.ofInt 8 (e + 127)) (BitVec.ofInt 23 (⌊v / 2 ^ (e - 23)⌋ - 2 ^ 23)) := by
  have hv : 0 < v := (zpow_pos two_pos e).trans_le hlo
  have habs : |signFactor neg * v| = v := by rw [abs_signFactor_mul, abs_of_pos hv]
  have hne : signFactor neg * v ≠ 0 := abs_pos.mp (hv.trans_eq habs.symm)
  rw [enc32Rat, if_neg hne]
  dsimp only
  rw [habs, log_eq_of_binade hlo hhi, decide_signFactor_mul_lt_zero neg hv]
  rfl

/-- Encoding a 24-bit significand with a normal exponent keeps the value. -/
theorem valueOf32_enc32Rat (neg : Bool) {m : Nat} {e : ℤ} (hm : 2 ^ 23 ≤ m) (hm' : m < 2 ^ 24)
    (he : -126 ≤ e) (he' : e ≤ 127) :
    valueOf32 (enc32Rat (signFactor neg * (m * 2 ^ (e - 23)))) =
      some (signFactor neg * (m * 2 ^ (e - 23))) := by
  have hlog : m.log2 = 23 := (Nat.log2_eq_iff (by omega)).mpr ⟨hm, hm'⟩
  have hbinade := natCast_mul_zpow_mem_binade (W := m) (by omega) (e - 23)
  rw [hlog, Nat.cast_ofNat, add_sub_cancel] at hbinade
  have hE : (BitVec.ofInt 8 (e + 127)).toNat = (e + 127).toNat := by
    rw [BitVec.toNat_ofInt]; omega
  have hF : (BitVec.ofInt 23 ((m : ℤ) - 2 ^ 23)).toNat = m - 2 ^ 23 := by
    rw [BitVec.toNat_ofInt]; omega
  have hexp : ((e + 127).toNat : ℤ) - 127 = e := by omega
  rw [enc32Rat_of_binade neg hbinade.1 hbinade.2, mul_div_cancel_right₀ _ (zpow_ne_zero _ two_ne_zero),
    Int.floor_natCast, valueOf32_binary32 neg _ (by omega) (by omega), hE, hF, hexp, Nat.cast_sub hm,
    zpow_sub₀ two_ne_zero]
  push_cast
  congr 1
  norm_num
  ring

/-- A nonzero number of normal magnitude, rounded to 24 bits, is encoded without loss. -/
theorem valueOf32_enc32Rat_flRat {v : ℚ}
    (h : v ≠ 0 → (2 : ℚ) ^ (-126 : ℤ) ≤ |v| ∧ |v| ≤ (2 : ℚ) ^ (126 : ℤ)) :
    valueOf32 (enc32Rat (flRat 24 v)) = some (flRat 24 v) := by
  rcases eq_or_ne v 0 with rfl | hv
  · rw [flRat_zero, enc32Rat_zero]
    rfl
  obtain ⟨hmin, hmax⟩ := h hv
  obtain ⟨e, hlo, hhi⟩ := exists_mem_Ico_zpow (abs_pos.mpr hv) one_lt_two
  have he : (-126 : ℤ) < e + 1 := (zpow_lt_zpow_iff_right₀ one_lt_two).mp (hmin.trans_lt hhi)
  have he' : e ≤ 126 := (zpow_le_zpow_iff_right₀ one_lt_two).mp (hlo.trans hmax)
  obtain ⟨hm, hm'⟩ := roundHalfEven_mem_of_binade 23 hlo hhi
  rw [← signFactor_mul_abs v, flRat_signFactor_mul, flRat_of_binade 24 hlo hhi]
  obtain ⟨m, hmeq⟩ := Int.eq_ofNat_of_zero_le ((Int.natCast_nonneg _).trans hm)
  rw [hmeq] at hm hm'
  rw [hmeq, Int.cast_natCast]
  have hulp : e - (24 : Nat) + 1 = e - 23 := by omega
  rw [hulp]
  rcases (Int.ofNat_le.mp hm').lt_or_eq with hlt | rfl
  · exact valueOf32_enc32Rat _ (Int.ofNat_le.mp hm) hlt (by omega) (by omega)
  · have hcarry : ((2 ^ (23 + 1) : Nat) : ℚ) * 2 ^ (e - 23) = (2 ^ 23 : Nat) * 2 ^ (e + 1 - 23) := by
      rw [show e + 1 - 23 = e - 23 + 1 by ring, zpow_add_one₀ two_ne_zero]
      push_cast
      ring
    rw [hcarry]
    exact valueOf32_enc32Rat _ le_rfl (by norm_num) (by omega) (by omega)

theorem enc32Int_of_ne_zero (neg : Bool) {V : Nat} (k : Nat) (hV : V ≠ 0) :
    enc32Int neg V k = binary32 neg (BitVec.ofInt 8 ((bitLen V : ℤ) - 1 - k + 127))
      (BitVec.ofNat 23 (significand 24 V - 2 ^ 23)) := if_neg hV

/-- The significand of `enc32_int` is the integer part of the one of `enc32`. -/
theorem floor_div_eq_significand (V k : Nat) :
    ⌊(V : ℚ) * 2 ^ (-k : ℤ) / 2 ^ ((V.log2 : ℤ) + -k - 23)⌋ = significand 24 V := by
  unfold significand bitLen
  split
  · next h =>
    obtain ⟨d, hd⟩ : ∃ d, V.log2 = 23 + d := Nat.exists_eq_add_of_le (by omega)
    have hquot : (V : ℚ) * 2 ^ (-k : ℤ) / 2 ^ ((V.log2 : ℤ) + -k - 23) = V / (2 ^ d : Nat) := by
      rw [hd, show ((23 + d : Nat) : ℤ) + -k - 23 = -k + d by push_cast; ring, zpow_add₀ two_ne_zero,
        mul_comm, mul_div_mul_left _ _ (zpow_ne_zero _ two_ne_zero)]
      push_cast
      rfl
    rw [hquot, Rat.floor_natCast_div_natCast, Nat.shiftRight_eq_div_pow, hd,
      show 23 + d + 1 - 24 = d by omega]
    rfl
  · next h =>
    obtain ⟨d, hd⟩ : ∃ d, 23 = V.log2 + d := Nat.exists_eq_add_of_le (by omega)
    have hquot : (V : ℚ) * 2 ^ (-k : ℤ) / 2 ^ ((V.log2 : ℤ) + -k - 23) = (V * 2 ^ d : Nat) := by
      rw [show (V.log2 : ℤ) + -k - 23 = -k - d by omega, zpow_sub₀ two_ne_zero]
      have := zpow_ne_zero (-k : ℤ) (two_ne_zero (α := ℚ))
      rw [zpow_natCast]
      push_cast
      field_simp
    rw [hquot, Int.floor_natCast, Nat.shiftLeft_eq, show 24 - (V.log2 + 1) = d by omega]

theorem two_pow_le_significand {V : Nat} (hV : V ≠ 0) : 2 ^ 23 ≤ significand 24 V := by
  have hlog := Nat.log2_self_le hV
  unfold significand bitLen
  split
  · next h =>
    rw [Nat.shiftRight_eq_div_pow, Nat.le_div_iff_mul_le (Nat.two_pow_pos _), ← pow_add]
    rwa [show 23 + (V.log2 + 1 - 24) = V.log2 by omega]
  · next h =>
    rw [Nat.shiftLeft_eq]
    calc 2 ^ 23 = 2 ^ V.log2 * 2 ^ (24 - (V.log2 + 1)) := by
          rw [← pow_add, show V.log2 + (24 - (V.log2 + 1)) = 23 by omega]
      _ ≤ V * 2 ^ (24 - (V.log2 + 1)) := Nat.mul_le_mul_right _ hlog

/-- `enc32_int` is `enc32` of the number it stands for (42_range_scaler.md R131). -/
theorem enc32Int_eq_enc32Rat (neg : Bool) (V k : Nat) :
    enc32Int neg V k = enc32Rat (signFactor neg * (V * 2 ^ (-k : ℤ))) := by
  rcases eq_or_ne V 0 with rfl | hV
  · simp [enc32Int]
  obtain ⟨hlo, hhi⟩ := natCast_mul_zpow_mem_binade hV (-k)
  have hexp : (bitLen V : ℤ) - 1 - k + 127 = V.log2 + -k + 127 := by
    rw [bitLen]; push_cast; ring
  have hfrac : ((significand 24 V : ℤ) - 2 ^ 23) = (significand 24 V - 2 ^ 23 : Nat) := by
    rw [Nat.cast_sub (two_pow_le_significand hV)]; rfl
  rw [enc32Rat_of_binade neg hlo hhi, enc32Int_of_ne_zero neg k hV, floor_div_eq_significand, hexp, hfrac,
    BitVec.ofInt_natCast]

/-- The sign bit of a nonzero number is its sign. -/
theorem enc32Int_sign (neg : Bool) {V : Nat} (k : Nat) (hV : V ≠ 0) :
    (enc32Int neg V k).getLsbD 31 = neg := by
  rw [enc32Int_of_ne_zero neg k hV, binary32_sign]

theorem enc32Int_not (neg : Bool) {V : Nat} (k : Nat) (hV : V ≠ 0) :
    enc32Int (!neg) V k = enc32Int neg V k ^^^ 0x80000000#32 := by
  rw [enc32Int_of_ne_zero _ k hV, enc32Int_of_ne_zero _ k hV, binary32_not]

end Sys2Proof.Machine
end

section
/-! SUPPORT. The two mappings (42_range_scaler.md R125 to R127, R131): the two scale factors, the integer
form as two roundings of the product, and the bounds that keep a result normal. -/

namespace Sys2Proof.Machine

/-- `C_Z` keeps the first two terms of the expansion of its quotient (42_range_scaler.md R125). -/
theorem scaleZRat_eq : scaleZRat = 4294967297 / 2 ^ 64 := by
  have h : flRat 53 (1 / 4294967295) = ((4294967297 * 2 ^ 20 : ℤ) : ℚ) * 2 ^ ((-32 : ℤ) - (53 : Nat) + 1) :=
    flRat_eq_of_abs_lt (by norm_num) (by norm_num) (by norm_num [abs_lt])
  rw [scaleZRat, h]
  norm_num

/-- `C_N` keeps the first two terms of the expansion of its quotient (42_range_scaler.md R125). -/
theorem scaleNRat_eq : scaleNRat = 2147483649 / 2 ^ 62 := by
  have h : flRat 53 (1 / 2147483647) = ((2147483649 * 2 ^ 21 : ℤ) : ℚ) * 2 ^ ((-31 : ℤ) - (53 : Nat) + 1) :=
    flRat_eq_of_abs_lt (by norm_num) (by norm_num) (by norm_num [abs_lt])
  rw [scaleNRat, h]
  norm_num

theorem scaleZ_eq : (scaleZ : ℚ) * 2 ^ (-(64 : Nat) : ℤ) = scaleZRat := by
  rw [scaleZRat_eq, scaleZ]
  norm_num

theorem scaleN_eq : (scaleN : ℚ) * 2 ^ (-(62 : Nat) : ℤ) = scaleNRat := by
  rw [scaleNRat_eq, scaleN]
  norm_num

/-- The integer form of a mapping is two roundings of the number its product stands for, encoded. -/
theorem enc32Int_two_roundings (neg : Bool) (W k : Nat) :
    enc32Int neg (rneInt (rneInt W 53) 24) k =
      enc32Rat (flRat 24 (flRat 53 (signFactor neg * (W * 2 ^ (-k : ℤ))))) := by
  rw [enc32Int_eq_enc32Rat, flRat_signFactor_mul, flRat_signFactor_mul, flRat_natCast_mul_zpow,
    flRat_natCast_mul_zpow]

/-- The exact product of `zmap` in units of 2^-64. -/
theorem unsigned_mul_scaleZRat (raw : Word) :
    (raw.unsigned : ℚ) * scaleZRat = (raw.unsigned * scaleZ : Nat) * 2 ^ (-(64 : Nat) : ℤ) := by
  rw [← scaleZ_eq, Nat.cast_mul, mul_assoc]

/-- The exact product of `nmap` as sign and magnitude, in units of 2^-62. -/
theorem signed_mul_scaleNRat (raw : Word) :
    (raw.signed : ℚ) * scaleNRat =
      signFactor (decide (raw.signed < 0)) * ((raw.signed.natAbs * scaleN : Nat) * 2 ^ (-(62 : Nat) : ℤ)) := by
  have hsigned : (raw.signed : ℚ) = signFactor (decide (raw.signed < 0)) * raw.signed.natAbs := by
    have h := signFactor_mul_abs (raw.signed : ℚ)
    rw [Nat.cast_natAbs, Int.cast_abs]
    simpa using h.symm
  rw [hsigned, ← scaleN_eq, Nat.cast_mul]
  ring

theorem zmap_eq_zmapRat (raw : Word) : zmap raw = zmapRat raw := by
  rw [zmap, zmapProduct, enc32Int_two_roundings, ← unsigned_mul_scaleZRat, signFactor_false, one_mul]
  rfl

theorem nmap_eq_nmapRat (raw : Word) : nmap raw = nmapRat raw := by
  rw [nmap, nmapProduct, enc32Int_two_roundings, ← signed_mul_scaleNRat]
  rfl

/-- The double of `nmap` is its sign and the integer form's product. -/
theorem nmapDouble_eq (raw : Word) :
    nmapDouble raw =
      signFactor (decide (raw.signed < 0)) * (nmapProduct raw * 2 ^ (-(62 : Nat) : ℤ)) := by
  rw [nmapDouble, signed_mul_scaleNRat, flRat_signFactor_mul, flRat_natCast_mul_zpow, nmapProduct]

theorem rneInt_ne_zero {W p : Nat} (hp : 0 < p) (hW : W ≠ 0) : rneInt W p ≠ 0 := by
  have h := flRat_natCast_mul_zpow p W 0
  rw [zpow_zero, mul_one, mul_one] at h
  have hpos := flRat_pos hp (Nat.cast_pos.mpr (Nat.pos_of_ne_zero hW))
  exact (Nat.cast_pos.mp (h ▸ hpos)).ne'

theorem signed_eq_zero_iff (raw : Word) : raw.signed = 0 ↔ raw = 0 :=
  BitVec.toInt_inj (y := 0#32)

/-- The narrowed product of `nmap` is zero for the zero word only. -/
theorem rneInt_nmapProduct_ne_zero {raw : Word} (h : raw ≠ 0) : rneInt (nmapProduct raw) 24 ≠ 0 := by
  have hmag : raw.signed.natAbs ≠ 0 := Int.natAbs_ne_zero.mpr (mt (signed_eq_zero_iff raw).mp h)
  exact rneInt_ne_zero (by decide) (rneInt_ne_zero (by decide) (Nat.mul_ne_zero hmag (by decide)))

theorem signed_neg_iff (raw : Word) : raw.signed < 0 ↔ 0x80000000 ≤ raw.toNat := by
  rw [Word.signed, BitVec.toInt_neg_iff]
  omega

/-- The sign bit of `nmap` is the sign of the signed reading, also at zero. -/
theorem nmap_sign (raw : Word) : (nmap raw).getLsbD 31 = decide (raw.signed < 0) := by
  by_cases h : raw = 0
  · subst h
    decide
  · exact enc32Int_sign _ 62 (rneInt_nmapProduct_ne_zero h)

/-- Away from zero and the least value, negation changes the sign of `nmap` and keeps its magnitude. -/
theorem nmap_neg {raw : Word} (h0 : raw ≠ 0) (hmin : raw ≠ 0x80000000#32) :
    nmap (-raw) = nmap raw ^^^ 0x80000000#32 := by
  have hneg : (-raw).signed = -raw.signed := BitVec.toInt_neg_of_ne_intMin hmin
  have hne : raw.signed ≠ 0 := mt (signed_eq_zero_iff raw).mp h0
  have hsign : decide ((-raw).signed < 0) = !decide (raw.signed < 0) := by
    rw [hneg, ← decide_not, decide_eq_decide]
    omega
  have hprod : nmapProduct (-raw) = nmapProduct raw := by
    rw [nmapProduct, hneg, Int.natAbs_neg, nmapProduct]
  rw [nmap, hsign, hprod, enc32Int_not _ 62 (rneInt_nmapProduct_ne_zero h0), nmap]

/-- The number a `zmap` result encodes (42_range_scaler.md R126). -/
def zmapValue (raw : Word) : ℚ := flRat 24 (zmapDouble raw)

/-- The number an `nmap` result encodes (42_range_scaler.md R127). -/
def nmapValue (raw : Word) : ℚ := flRat 24 (nmapDouble raw)

/-- Two roundings of an integer times a scale factor give zero or a number of normal magnitude. -/
theorem valueOf32_two_roundings {n : ℤ} {c : ℚ} (hn : |n| ≤ 2 ^ 32) (hc : (2 : ℚ) ^ (-32 : ℤ) ≤ c)
    (hc' : c ≤ 1) :
    valueOf32 (enc32Rat (flRat 24 (flRat 53 (n * c)))) = some (flRat 24 (flRat 53 (n * c))) := by
  have hcpos : 0 < c := (zpow_pos two_pos _).trans_le hc
  refine valueOf32_enc32Rat_flRat fun hne => ?_
  have hn0 : n ≠ 0 := by
    rintro rfl
    simp at hne
  have hn1 : (1 : ℚ) ≤ |(n : ℚ)| := by exact_mod_cast Int.one_le_abs hn0
  have hn2 : |(n : ℚ)| ≤ (2 : ℚ) ^ (32 : ℤ) := by exact_mod_cast hn
  have habs : |(n : ℚ) * c| = |(n : ℚ)| * c := by rw [abs_mul, abs_of_pos hcpos]
  have hlo : (2 : ℚ) ^ (-32 : ℤ) ≤ |(n : ℚ) * c| :=
    habs ▸ hc.trans (le_mul_of_one_le_left hcpos.le hn1)
  have hhi : |(n : ℚ) * c| ≤ (2 : ℚ) ^ (32 : ℤ) :=
    habs ▸ (mul_le_of_le_one_right (abs_nonneg _) hc').trans hn2
  obtain ⟨hmin, hmax⟩ := abs_flRat_mem (p := 53) (by decide) hlo hhi
  exact ⟨(zpow_le_zpow_right₀ one_le_two (by decide)).trans hmin,
    hmax.trans (zpow_le_zpow_right₀ one_le_two (by decide))⟩

theorem valueOf32_zmap (raw : Word) : valueOf32 (zmap raw) = some (zmapValue raw) := by
  have hraw : |(raw.unsigned : ℤ)| ≤ 2 ^ 32 := by
    rw [Nat.abs_cast]
    exact_mod_cast raw.isLt.le
  rw [zmap_eq_zmapRat]
  exact valueOf32_two_roundings hraw (by rw [scaleZRat_eq]; norm_num) (by rw [scaleZRat_eq]; norm_num)

theorem signed_bounds (raw : Word) : -2147483648 ≤ raw.signed ∧ raw.signed ≤ 2147483647 :=
  ⟨BitVec.le_toInt raw, Int.le_of_lt_add_one BitVec.toInt_lt⟩

theorem valueOf32_nmap (raw : Word) : valueOf32 (nmap raw) = some (nmapValue raw) := by
  have hraw : |raw.signed| ≤ 2 ^ 32 := by
    have := signed_bounds raw
    rw [abs_le]
    omega
  rw [nmap_eq_nmapRat]
  exact valueOf32_two_roundings hraw (by rw [scaleNRat_eq]; norm_num) (by rw [scaleNRat_eq]; norm_num)

/-- The two roundings, one after the other, are monotone (42_range_scaler.md R123). -/
theorem two_roundings_mono {v w : ℚ} (h : v ≤ w) : flRat 24 (flRat 53 v) ≤ flRat 24 (flRat 53 w) :=
  flRat_mono (by decide) (flRat_mono (by decide) h)

theorem zmapValue_mono {a b : Word} (h : a.unsigned ≤ b.unsigned) : zmapValue a ≤ zmapValue b := by
  have hscale : 0 ≤ scaleZRat := by rw [scaleZRat_eq]; norm_num
  exact two_roundings_mono (mul_le_mul_of_nonneg_right (Nat.cast_le.mpr h) hscale)

theorem nmapValue_mono {a b : Word} (h : a.signed ≤ b.signed) : nmapValue a ≤ nmapValue b := by
  have hscale : 0 ≤ scaleNRat := by rw [scaleNRat_eq]; norm_num
  exact two_roundings_mono (mul_le_mul_of_nonneg_right (Int.cast_le.mpr h) hscale)

/-- The double of the least signed value lies past -1 (42_range_scaler.md R141). -/
theorem nmapDouble_least : nmapDouble 0x80000000#32 = -(1 + 1 / 2 ^ 31) := by
  have hproduct : nmapProduct 0x80000000#32 = 2 ^ 31 * (2 ^ 31 + 1) := by decide
  have hsigned : decide (Word.signed 0x80000000#32 < 0) = true := by decide
  rw [nmapDouble_eq, hproduct, hsigned, signFactor_true]
  norm_num

theorem nmapDouble_least_succ : nmapDouble 0x80000001#32 = -1 := by
  have hproduct : nmapProduct 0x80000001#32 = 2 ^ 62 := by decide
  have hsigned : decide (Word.signed 0x80000001#32 < 0) = true := by decide
  rw [nmapDouble_eq, hproduct, hsigned, signFactor_true]
  norm_num

theorem nmapDouble_greatest : nmapDouble 0x7FFFFFFF#32 = 1 := by
  have hproduct : nmapProduct 0x7FFFFFFF#32 = 2 ^ 62 := by decide
  have hsigned : decide (Word.signed 0x7FFFFFFF#32 < 0) = false := by decide
  rw [nmapDouble_eq, hproduct, hsigned, signFactor_false]
  norm_num

theorem flRat_one {p : Nat} (hp : 0 < p) : flRat p 1 = 1 := by
  simpa using flRat_zpow hp 0

/-- A product of at most 1 keeps that bound through both roundings. -/
theorem two_roundings_le_one {v : ℚ} (hv : v ≤ 1) : flRat 24 (flRat 53 v) ≤ 1 := by
  have h := two_roundings_mono hv
  rwa [flRat_one (by decide), flRat_one (by decide)] at h

theorem zmapValue_mem (raw : Word) : 0 ≤ zmapValue raw ∧ zmapValue raw ≤ 1 := by
  have hraw : (raw.unsigned : ℚ) ≤ 4294967295 := by exact_mod_cast Nat.le_of_lt_succ raw.isLt
  have hnonneg : 0 ≤ (raw.unsigned : ℚ) * scaleZRat := by rw [scaleZRat_eq]; positivity
  have hle : (raw.unsigned : ℚ) * scaleZRat ≤ 1 := by rw [scaleZRat_eq]; linarith
  exact ⟨flRat_nonneg (by decide) (flRat_nonneg (by decide) hnonneg), two_roundings_le_one hle⟩

/-- The second rounding brings the double of the least signed value back to -1 (42_range_scaler.md R141). -/
theorem nmapValue_least : nmapValue 0x80000000#32 = -1 := by
  have hbinary : (1 + 1 / 2 ^ 31 : ℚ) = (2 ^ 31 + 1 : Nat) * 2 ^ (-31 : ℤ) := by norm_num
  have hround : rneInt (2 ^ 31 + 1) 24 = 2 ^ 31 := by decide
  rw [nmapValue, nmapDouble_least, flRat_neg, hbinary, flRat_natCast_mul_zpow, hround]
  norm_num

theorem nmapValue_mem (raw : Word) : -1 ≤ nmapValue raw ∧ nmapValue raw ≤ 1 := by
  obtain ⟨hge, hle⟩ := signed_bounds raw
  have hraw : (raw.signed : ℚ) ≤ 2147483647 := by exact_mod_cast hle
  have hprod : (raw.signed : ℚ) * scaleNRat ≤ 1 := by rw [scaleNRat_eq]; linarith
  exact ⟨nmapValue_least ▸ nmapValue_mono hge, two_roundings_le_one hprod⟩

end Sys2Proof.Machine
end

section
/-! The obligations of 42_range_scaler.md. -/

open Sys2Proof Sys2Proof.Machine

/-- Settles O26: the integer form is two roundings of the product, which `scaleZ` gives in units of 2^-64. -/
theorem zmapIsTwoRoundingsOfTheProduct : Obligations.ZmapIsTwoRoundingsOfTheProduct := zmap_eq_zmapRat

/-- Settles O27: the same in sign and magnitude, and the encoding takes over the sign. -/
theorem nmapIsTwoRoundingsOfTheProduct : Obligations.NmapIsTwoRoundingsOfTheProduct := fun raw =>
  ⟨nmap_eq_nmapRat raw, (nmap_sign raw).trans (decide_eq_decide.mpr (signed_neg_iff raw)),
    by decide, by decide⟩

/-- Settles O28: a number below `2 ^ p` is kept, and from there on the quotient is rounded. -/
theorem integerRoundingIsToNearestEven : Obligations.IntegerRoundingIsToNearestEven := fun W p hp =>
  ⟨rneInt_representable W p, fun _ k hm => rneInt_nearest hp hm k,
    fun _ hlo hhi htie => rneInt_tie hlo hhi htie⟩

/-- Settles O29: a rounding takes the sign aside, and keeps the order within a binade and across. -/
theorem roundingIsSymmetricAndMonotone : Obligations.RoundingIsSymmetricAndMonotone := fun p v _ hp =>
  ⟨flRat_neg p v, fun hvw => flRat_mono hp hvw⟩

/-- Settles O30: the fields of the encoding read back as the exponent and the significand. -/
theorem binary32EncodingKeepsTheValue : Obligations.Binary32EncodingKeepsTheValue := by
  intro neg m e hm hm' he he'
  have h := valueOf32_enc32Rat neg hm hm' he he'
  rwa [← mul_assoc] at h

/-- Settles O31: the twice rounded products are the numbers encoded, and each rounding is monotone. -/
theorem scaledNoiseStaysInRangeAndIsMonotone : Obligations.ScaledNoiseStaysInRangeAndIsMonotone := by
  refine ⟨zmapValue, nmapValue, fun a b => ?_⟩
  obtain ⟨hz0, hz1⟩ := zmapValue_mem a
  obtain ⟨hn0, hn1⟩ := nmapValue_mem a
  exact ⟨valueOf32_zmap a, hz0, hz1, valueOf32_nmap a, hn0, hn1, zmapValue_mono, nmapValue_mono⟩

/-- Settles O35: the three doubles from the integer products, and a negation that changes the sign alone. -/
theorem nmapAsymmetryIsKept : Obligations.NmapAsymmetryIsKept :=
  ⟨nmapDouble_least, by decide, nmapDouble_least_succ, nmapDouble_greatest, fun _ => nmap_neg⟩

/-- Settles O15: the four NOISE_Z cases of what every meaning does. -/
theorem noiseZCompletes : Obligations.NoiseZCompletes := fun x y z t seed s =>
  ⟨exec_completes (.noiseZ1D x seed) s, exec_completes (.noiseZ2D x y seed) s,
    exec_completes (.noiseZ3D x y z seed) s, exec_completes (.noiseZ4D x y z t seed) s⟩

/-- Settles O16: the four NOISE_N cases of what every meaning does. -/
theorem noiseNCompletes : Obligations.NoiseNCompletes := fun x y z t seed s =>
  ⟨exec_completes (.noiseN1D x seed) s, exec_completes (.noiseN2D x y seed) s,
    exec_completes (.noiseN3D x y z seed) s, exec_completes (.noiseN4D x y z t seed) s⟩

/-- Settles O25: each quotient lies less than half a unit in the last place from its fraction. -/
theorem scaleFactorsAreRoundedReciprocals : Obligations.ScaleFactorsAreRoundedReciprocals := by
  refine ⟨scaleZRat_eq, scaleNRat_eq, ?_, ?_, by decide, by decide⟩
  · rw [scaleZRat_eq, scaleZ]
    norm_num
  · rw [scaleNRat_eq, scaleN]
    norm_num

end

section
/-! SUPPORT. Abnormal completion (60_exceptions.md R160, R161, R174): which requests are answered with `err`,
the cycle that takes in a reserved code, and the invariant of a run whose requests all have assigned codes. -/

namespace Sys2Proof.Machine

theorem assigned_iff (q : Request) : q.assigned = true ↔ q.op.toNat < 13 := by simp [Request.assigned]

/-- Whatever could have been drawn, `err` tells the reserved codes from the assigned ones. -/
theorem respond_err_iff (drawn : Word) (q : Request) : (respond drawn q).err = true ↔ 13 ≤ q.op.toNat := by
  constructor
  · intro herr
    by_contra hop
    have hassigned := (assigned_iff q).mpr (Nat.not_le.mp hop)
    simp [respond_err_of_assigned hassigned drawn] at herr
  · intro hop
    rw [respond_of_decode_error (decode_of_reserved hop) drawn, illegalResponse]

/-- A cycle that accepts a request the decoder rejects raises `IllegalOp`, and then closes. -/
theorem clockCycle_of_decode_error {t : Timing} {s : State} {e : DecodeError}
    (ha : acceptsOn t s.input = true) (hd : decode s.input.request = .error e) :
    clockCycle t s = .next (s.raiseIllegalOp.closeCycle t) := by simp [clockCycle, ha, hd]

theorem TakesIn.draws_eq {t : Timing} {s s1 : State} (h : TakesIn t s s1) : s1.draws = s.draws := by
  cases h <;> rfl

theorem TakesIn.responses_eq {t : Timing} {s s1 : State} (h : TakesIn t s s1) :
    s1.responses = s.responses := by
  cases h <;> rfl

/-- Closing a cycle, with a reset edge or without, adds nothing to what is delivered or in flight. -/
theorem State.closeCycle_account_subset (t : Timing) (s : State) :
    (s.closeCycle t).account ⊆ s.account := by
  cases hr : resetsOn t s.input with
  | false =>
    rw [State.closeCycle_account hr]
    exact List.Subset.refl _
  | true =>
    have hkept : s.account =
        (s.closeCycle t).account ++ (afterDue t.latency s.inFlight).map InFlight.rsp := by
      simp [State.account, hr, due_append_after t.latency s.inFlight]
    rw [hkept]
    exact List.subset_append_left _ _

theorem reqValid_of_acceptsOn {t : Timing} {p : PortInput} (h : acceptsOn t p = true) :
    p.reqValid = true := by
  simp only [acceptsOn, Bool.and_eq_true] at h
  exact h.1

/-- In a schedule of assigned codes the request a cycle accepts has one. -/
theorem AllAssigned.input_assigned {t : Timing} {s : State} (h : AllAssigned s.inputs)
    (ha : acceptsOn t s.input = true) : s.input.request.assigned = true := by
  have hvalid := reqValid_of_acceptsOn ha
  cases hins : s.inputs with
  | nil => simp [State.input, hins, PortInput.idle] at hvalid
  | cons p ins =>
    have hp : s.input = p := by simp [State.input, hins]
    rw [hp] at hvalid ⊢
    exact h p (by simp [hins]) hvalid

/-- The invariant of a run without `IllegalOp`: only assigned codes are still to come, and no response
delivered or in flight has `err` = 1. -/
structure NoErr (s : State) : Prop where
  inputs : AllAssigned s.inputs
  account : ∀ p ∈ s.account, p.err = false

/-- The response that enters the pipeline answers a request with an assigned code. -/
theorem NoErr.takesIn {t : Timing} {s s1 : State} (h : NoErr s) (h1 : TakesIn t s s1) : NoErr s1 := by
  cases h1 with
  | nothing => exact h
  | accepted p ha hp =>
    refine ⟨h.inputs, fun p' hp' => ?_⟩
    have hcases : p' ∈ s.account ∨ p' = p := by simpa [State.account, or_assoc] using hp'
    rcases hcases with hold | rfl
    · exact h.account p' hold
    · exact hp.err_of_assigned (h.inputs.input_assigned ha)

theorem NoErr.closeCycle {t : Timing} {s : State} (h : NoErr s) : NoErr (s.closeCycle t) where
  inputs p hp := h.inputs p (List.mem_of_mem_tail hp)
  account p hp := h.account p (State.closeCycle_account_subset t s hp)

theorem NoErr.errFree {s : State} (h : NoErr s) : ErrFree s := fun p hp =>
  h.account p (List.mem_append_left _ hp)

end Sys2Proof.Machine
end

section
/-! The obligations of 60_exceptions.md. -/

open Sys2Proof Sys2Proof.Machine

/-- Settles O39: a cycle takes in and closes; taking in leaves the inputs, the record and the draw counter
alone, and closing adds to the record what it shows. -/
theorem everyCycleCompletes : Obligations.EveryCycleCompletes := by
  intro t s
  obtain ⟨s1, h1, hc⟩ := clockCycle_takesIn t s
  exact ⟨_, hc, by simp [h1.inputs_eq], by simp [h1.draws_eq], by simp [h1.responses_eq]⟩

/-- Settles O48: with nothing in flight the invariant `NoErr` holds at the start, and every cycle keeps it. -/
theorem assignedCodesGiveAnErrFreeRun : Obligations.AssignedCodesGiveAnErrFreeRun := by
  intro t s n hempty hfree hassigned
  have hstart : NoErr s := ⟨hassigned, by simpa [State.account, hempty, ErrFree] using hfree⟩
  obtain ⟨s', hrun, -, hs'⟩ := runCycles_keeps (fun _ _ hs h1 => (hs.takesIn h1).closeCycle) n hstart
  exact ⟨s', hrun, hs'.errFree⟩

/-- Settles O12: every meaning completes normally, and `respond` sets `err` and reads the draw for reserved
codes only. -/
theorem errExactlyForReservedCodes : Obligations.ErrExactlyForReservedCodes :=
  ⟨fun i s => ⟨_, exec_completes i s⟩, fun drawn drawn' q =>
    ⟨respond_err_iff drawn q, fun hop => respond_of_assigned ((assigned_iff q).mpr hop) drawn drawn'⟩⟩

/-- Settles O38: the decoder rejects the request, and the cycle raises `IllegalOp` before it closes. -/
theorem reservedCodeIsAnsweredWithErr : Obligations.ReservedCodeIsAnsweredWithErr := fun _ s ha herr =>
  clockCycle_of_decode_error ha (decode_of_reserved ((errOfCode_iff s.input.request.op).mp herr))

end

section
/-! SUPPORT. Counting the cycles of a run: its last cycle, and what holds after each number of cycles. -/

namespace Sys2Proof.Machine

/-- One more cycle at the end of a run. -/
theorem runCycles_succ_last {t : Timing} {s sn s' : State} {n : Nat} (hrun : runCycles t n s = .next sn)
    (hc : clockCycle t sn = .next s') : runCycles t (n + 1) s = .next s' := by
  rw [runCycles_add n 1 hrun, runCycles_succ_of_next 0 hc, runCycles_zero]

theorem input_of_inputs_eq_drop {s : State} {ins : List PortInput} {n : Nat} (h : s.inputs = ins.drop n) :
    s.input = inputAt ins n := by
  rw [State.input_eq_inputAt, h, inputAt_drop, Nat.add_zero]

/-- What holds at the start and passes from each cycle of the schedule to the next holds after every number
of cycles; `runCycles_keeps` for a property that speaks of the cycle. -/
theorem runCycles_keeps_at {t : Timing} {P : Nat → State → Prop} {s : State} (hstart : P 0 s)
    (hstep : ∀ n sn s1, sn.input = inputAt s.inputs n → P n sn → TakesIn t sn s1 →
      P (n + 1) (s1.closeCycle t)) (n : Nat) :
    ∃ sn, runCycles t n s = .next sn ∧ sn.input = inputAt s.inputs n ∧ P n sn := by
  have hinputs : ∃ sn, runCycles t n s = .next sn ∧ sn.inputs = s.inputs.drop n ∧ P n sn := by
    induction n with
    | zero => exact ⟨s, rfl, rfl, hstart⟩
    | succ n ih =>
      obtain ⟨sn, hrun, hin, hP⟩ := ih
      obtain ⟨s1, h1, hc⟩ := clockCycle_takesIn t sn
      refine ⟨_, runCycles_succ_last hrun hc, ?_, hstep n sn s1 (input_of_inputs_eq_drop hin) hP h1⟩
      rw [State.closeCycle_inputs, h1.inputs_eq, hin, List.tail_drop]
  obtain ⟨sn, hrun, hin, hP⟩ := hinputs
  exact ⟨sn, hrun, input_of_inputs_eq_drop hin, hP⟩

end Sys2Proof.Machine
end

section
/-! SUPPORT. The invariant and the reset edge (70_reset_and_hazards.md R180, R187): the response channel
agrees with the record, the ages in the pipeline bound its length, and a block with a pipeline shows
nothing in the cycle after it was emptied. -/

namespace Sys2Proof.Machine

/-- Whatever is shown in a cycle is the last response of the record. -/
theorem State.closeCycle_channelOk (t : Timing) (s : State) : ChannelOk (s.closeCycle t) := by
  intro p hp
  rw [State.closeCycle_rsp] at hp
  simp [hp]

theorem Inv.closeCycle {t : Timing} {s s1 : State} (h : Inv t s) (h1 : TakesIn t s s1) :
    Inv t (s1.closeCycle t) :=
  ⟨h.1.closeCycle h1, s1.closeCycle_channelOk t⟩

theorem Inv.clockCycle {t : Timing} {s s' : State} (h : Inv t s) (hc : clockCycle t s = .next s') :
    Inv t s' := by
  obtain ⟨s1, h1, hc1⟩ := clockCycle_takesIn t s
  cases hc.symm.trans hc1
  exact h.closeCycle h1

/-- Requests of different ages between 1 and `L`, oldest first, are at most `L`: each one behind the first
is younger than it. -/
theorem length_le_of_ages {L : Nat} {es : List InFlight}
    (hsorted : es.Pairwise fun a b => b.age < a.age) (hage : ∀ e ∈ es, 1 ≤ e.age ∧ e.age ≤ L) :
    es.length ≤ L := by
  induction es generalizing L with
  | nil => exact Nat.zero_le L
  | cons e es ih =>
    obtain ⟨hyounger, hsorted⟩ := List.pairwise_cons.mp hsorted
    obtain ⟨hpos, hle⟩ := hage e (by simp)
    have hrest : es.length ≤ e.age - 1 := ih hsorted fun e' he' =>
      ⟨(hage e' (by simp [he'])).1, Nat.le_sub_one_of_lt (hyounger e' he')⟩
    rw [List.length_cons]
    omega

/-- A block with a pipeline sees every `rst`. -/
theorem resetsOn_of_rst {t : Timing} {p : PortInput} (hL : 0 < t.latency) (h : p.rst = true) :
    resetsOn t p = true := by
  simp [resetsOn, timingSeesReset, h, Nat.ne_of_gt hL]

/-- A request that enters an empty pipeline is not due in the same cycle. -/
theorem TakesIn.dueResponse_of_empty {t : Timing} {s s1 : State} (h : TakesIn t s s1)
    (hL : 0 < t.latency) (hempty : s.inFlight = []) : dueResponse t.latency s1.inFlight = none := by
  cases h with
  | accepted p => simp [hempty, dueResponse, Nat.ne_of_gt hL]
  | nothing => simp [hempty]

end Sys2Proof.Machine
end

section
/-! SUPPORT. Where the responses in flight come from (70_reset_and_hazards.md R186, R188): the age of each
one tells the cycle that accepted its request, and no reset edge fell since. -/

namespace Sys2Proof.Machine

/-- In cycle `n` of a run over the schedule `ins`, `e` answers a request accepted `e.age` cycles before,
with no reset edge between. -/
def ComesFrom (t : Timing) (ins : List PortInput) (n : Nat) (e : InFlight) : Prop :=
  ∃ c, c + e.age = n ∧ acceptsOn t (inputAt ins c) = true ∧ ¬ resetBetween t ins c n ∧
    Answers (inputAt ins c).request e.rsp

theorem not_resetBetween_self (t : Timing) (ins : List PortInput) (n : Nat) :
    ¬ resetBetween t ins n n := by
  rintro ⟨j, hlt, hgt, -⟩
  exact Nat.lt_asymm hlt hgt

/-- A cycle without a reset edge cuts nothing off. -/
theorem not_resetBetween_succ {t : Timing} {ins : List PortInput} {c n : Nat}
    (h : ¬ resetBetween t ins c n) (hr : resetsOn t (inputAt ins n) = false) :
    ¬ resetBetween t ins c (n + 1) := by
  rintro ⟨j, hcj, hjn, hj⟩
  rcases Nat.lt_succ_iff_lt_or_eq.mp hjn with hlt | rfl
  · exact h ⟨j, hcj, hlt, hj⟩
  · simp [hr] at hj

/-- Where anything is left in flight the cycle had no reset edge. -/
theorem resetsOn_of_mem_closeCycle {t : Timing} {s : State} {e : InFlight}
    (he : e ∈ (s.closeCycle t).inFlight) : resetsOn t s.input = false := by
  refine Bool.eq_false_iff.mpr fun hr => ?_
  simp [hr] at he

/-- A request taken in comes from the present cycle. -/
theorem TakesIn.comesFrom {t : Timing} {ins : List PortInput} {n : Nat} {s s1 : State}
    (h1 : TakesIn t s s1) (hin : s.input = inputAt ins n)
    (h : ∀ e ∈ s.inFlight, ComesFrom t ins n e) : ∀ e ∈ s1.inFlight, ComesFrom t ins n e := by
  cases h1 with
  | nothing => exact h
  | accepted p ha hp =>
    intro e he
    rw [State.accept_inFlight, List.mem_append, List.mem_singleton] at he
    rcases he with he | rfl
    · exact h e he
    · exact ⟨n, rfl, hin ▸ ha, not_resetBetween_self t ins n, hin ▸ hp⟩

/-- What stays in flight is one cycle older in the next cycle. -/
theorem comesFrom_closeCycle {t : Timing} {ins : List PortInput} {n : Nat} {s : State}
    (hin : s.input = inputAt ins n) (h : ∀ e ∈ s.inFlight, ComesFrom t ins n e) :
    ∀ e ∈ (s.closeCycle t).inFlight, ComesFrom t ins (n + 1) e := by
  intro e he
  have hr := resetsOn_of_mem_closeCycle he
  rw [hin] at hr
  obtain ⟨e0, he0, rfl⟩ := exists_of_mem_closeCycle he
  obtain ⟨c, hage, ha, hcut, hp⟩ := h e0 ((afterDue_sublist _ _).subset he0)
  exact ⟨c, by simp only; omega, ha, not_resetBetween_succ hcut hr, hp⟩

/-- The pipeline of cycle `n` is sound, and all it holds has a known origin. -/
structure Traced (t : Timing) (ins : List PortInput) (n : Nat) (s : State) : Prop where
  sound : PipelineOk t s
  origin : ∀ e ∈ s.inFlight, ComesFrom t ins n e

theorem Traced.of_empty (t : Timing) (ins : List PortInput) {s : State} (h : s.inFlight = []) :
    Traced t ins 0 s :=
  ⟨.of_empty t h, by simp [h]⟩

theorem Traced.closeCycle {t : Timing} {ins : List PortInput} {n : Nat} {s s1 : State}
    (h : Traced t ins n s) (hin : s.input = inputAt ins n) (h1 : TakesIn t s s1) :
    Traced t ins (n + 1) (s1.closeCycle t) :=
  ⟨h.sound.closeCycle h1, comesFrom_closeCycle (h1.input_eq.trans hin) (h1.comesFrom hin h.origin)⟩

/-- A response that is due comes from the cycle `LATENCY` cycles before. -/
theorem LoadedOk.comesFrom_of_due {t : Timing} {ins : List PortInput} {n : Nat} {s : State} {p : Response}
    (h : LoadedOk t s) (hfrom : ∀ e ∈ s.inFlight, ComesFrom t ins n e)
    (hdue : dueResponse t.latency s.inFlight = some p) : ComesFrom t ins n ⟨p, t.latency⟩ := by
  obtain ⟨e, rest, hes, hle, rfl⟩ := dueResponse_eq_some.mp hdue
  have hmem : e ∈ s.inFlight := by simp [hes]
  rw [Nat.le_antisymm hle (h.2 e hmem)]
  exact hfrom e hmem

/-- From a state with nothing in flight: every response shown in cycle `n` comes from the cycle `LATENCY`
cycles before. -/
theorem runCycles_rsp_comesFrom (t : Timing) {s : State} (hempty : s.inFlight = []) (n : Nat) :
    ∃ s', runCycles t (n + 1) s = .next s' ∧
      ∀ p, s'.rsp = some p → ComesFrom t s.inputs n ⟨p, t.latency⟩ := by
  obtain ⟨sn, hrun, hin, htraced⟩ :=
    runCycles_keeps_at (Traced.of_empty t s.inputs hempty) (fun _ _ _ hin h h1 => h.closeCycle hin h1) n
  obtain ⟨s1, h1, hc⟩ := clockCycle_takesIn t sn
  refine ⟨_, runCycles_succ_last hrun hc, fun p hp => ?_⟩
  rw [State.closeCycle_rsp] at hp
  exact (htraced.sound.loadedOk h1).comesFrom_of_due (h1.comesFrom hin htraced.origin) hp

end Sys2Proof.Machine
end

section
/-! SUPPORT. What is delivered under resets (70_reset_and_hazards.md R188, 20_memory.md R46): a reset edge
cuts the answers in flight off the end of the account. -/

namespace Sys2Proof.Machine

/-- The responses delivered after the record `before`, and then those in flight, answer the requests `qs`
one by one. -/
def AnswersSince (before : List Response) (qs : List Request) (s : State) : Prop :=
  ∃ ps, s.responses = before ++ ps ∧ List.Forall₂ Answers qs (ps ++ s.inFlight.map InFlight.rsp)

theorem AnswersSince.of_empty {s : State} (h : s.inFlight = []) : AnswersSince s.responses [] s :=
  ⟨[], by simp, by simp [h]⟩

theorem AnswersSince.takesIn {t : Timing} {before : List Response} {qs : List Request} {s s1 : State}
    (h : AnswersSince before qs s) (h1 : TakesIn t s s1) :
    AnswersSince before (qs ++ if acceptsOn t s.input then [s.input.request] else []) s1 := by
  obtain ⟨ps, hrec, hans⟩ := h
  cases h1 with
  | nothing ha => exact ⟨ps, hrec, by simpa [ha] using hans⟩
  | accepted p ha hp =>
    have hnew : List.Forall₂ Answers [s.input.request] [p] := by simpa using hp
    exact ⟨ps, hrec, by simpa [ha] using List.rel_append hans hnew⟩

/-- The requests whose answers come first in a list of answers are the first ones. -/
theorem exists_sublist_of_answers_append {qs : List Request} {ps ps' : List Response}
    (h : List.Forall₂ Answers qs (ps ++ ps')) :
    ∃ qs', List.Sublist qs' qs ∧ List.Forall₂ Answers qs' ps :=
  ⟨qs.take ps.length, List.take_sublist _ _, List.forall₂_take_append qs ps ps' h⟩

/-- Closing a cycle keeps the answers to all the requests, or, at a reset edge, to the first of them. -/
theorem AnswersSince.closeCycle {before : List Response} {qs : List Request} {s : State}
    (h : AnswersSince before qs s) (t : Timing) :
    ∃ qs', List.Sublist qs' qs ∧ AnswersSince before qs' (s.closeCycle t) := by
  obtain ⟨ps, hrec, hans⟩ := h
  rw [due_append_after t.latency s.inFlight, ← List.append_assoc] at hans
  have hrec' : (s.closeCycle t).responses =
      before ++ (ps ++ (dueResponse t.latency s.inFlight).toList) := by simp [hrec]
  cases hr : resetsOn t s.input with
  | false => exact ⟨qs, .refl qs, _, hrec', by simpa [hr, ageAll, Function.comp_def] using hans⟩
  | true =>
    obtain ⟨qs', hsub, hans'⟩ := exists_sublist_of_answers_append hans
    exact ⟨qs', hsub, _, hrec', by simpa [hr] using hans'⟩

/-- The requests accepted in a schedule: the one of the coming cycle, then those of the rest. -/
theorem acceptedRequests_inputs (t : Timing) (s : State) :
    acceptedRequests t s.inputs =
      (if acceptsOn t s.input then [s.input.request] else []) ++ acceptedRequests t s.inputs.tail := by
  cases h : s.inputs with
  | nil => simp [State.input, h, acceptsOn, PortInput.idle, acceptedRequests]
  | cons p ins => simp [State.input, h, acceptedRequests_cons]

/-- What was answered since `before`, and what is still to be accepted, are requests of `all` in order. -/
def AnswersSublist (t : Timing) (before : List Response) (all : List Request) (s : State) : Prop :=
  ∃ qs, AnswersSince before qs s ∧ List.Sublist (qs ++ acceptedRequests t s.inputs) all

theorem AnswersSublist.closeCycle {t : Timing} {before : List Response} {all : List Request}
    {s s1 : State} (h : AnswersSublist t before all s) (h1 : TakesIn t s s1) :
    AnswersSublist t before all (s1.closeCycle t) := by
  obtain ⟨qs, hqs, hall⟩ := h
  obtain ⟨qs', hsub, hqs'⟩ := (hqs.takesIn h1).closeCycle t
  rw [acceptedRequests_inputs, ← List.append_assoc] at hall
  refine ⟨qs', hqs', .trans ?_ hall⟩
  rw [State.closeCycle_inputs, h1.inputs_eq]
  exact hsub.append_right _

end Sys2Proof.Machine
end

section
/-! SUPPORT. A block that was never reset beside one that was (70_reset_and_hazards.md R180; log 10): the
requests in flight as a requester may tell them apart, and those among them that are not older than the run. -/

namespace Sys2Proof.Machine

/-- Two answers to the same request tell the same: they differ in the draw of an `IllegalOp` at most. -/
theorem Answers.visible_eq {q : Request} {p p' : Response} (hp : Answers q p) (hp' : Answers q p') :
    visible p = visible p' := by
  by_cases hop : q.op.toNat < 13
  · rw [hp.unique hp' ((assigned_iff q).mpr hop)]
  · obtain ⟨d, rfl⟩ := hp
    obtain ⟨d', rfl⟩ := hp'
    have herr (drawn : Word) : (respond drawn q).err = true :=
      (respond_err_iff drawn q).mpr (Nat.not_lt.mp hop)
    simp [visible, herr]

/-- What the requests in flight tell, and their ages. -/
def State.seen (s : State) : List ((Bool × Option Word) × Nat) :=
  s.inFlight.map fun e => (visible e.rsp, e.age)

/-- What the requests in flight tell that are at most `k` cycles old. -/
def State.seenSince (k : Nat) (s : State) : List ((Bool × Option Word) × Nat) :=
  s.seen.filter fun v => decide (v.2 ≤ k)

@[simp] theorem State.accept_seen (s : State) (p : Response) :
    (s.accept p).seen = s.seen ++ [(visible p, 0)] := by
  simp [State.seen]

@[simp] theorem State.accept_seenSince (k : Nat) (s : State) (p : Response) :
    (s.accept p).seenSince k = s.seenSince k ++ [(visible p, 0)] := by
  simp [State.seenSince]

/-- What is shown in a cycle tells what the oldest request in flight told. -/
theorem State.visible_closeCycle_rsp (t : Timing) (s : State) :
    (s.closeCycle t).rsp.map visible =
      (s.seen.head?.filter fun v => decide (t.latency ≤ v.2)).map Prod.fst := by
  rw [State.closeCycle_rsp, State.seen]
  cases s.inFlight with
  | nil => rfl
  | cons e rest =>
    by_cases h : t.latency ≤ e.age
    · simp [dueResponse, h]
    · simp [dueResponse, h, Nat.lt_of_not_le h]

/-- In a sound pipeline the requests that stay behind are those younger than `LATENCY`. -/
theorem LoadedOk.afterDue_eq_filter {t : Timing} {s : State} (h : LoadedOk t s) :
    afterDue t.latency s.inFlight = s.inFlight.filter fun e => decide (e.age < t.latency) := by
  have hyoung : ∀ e ∈ afterDue t.latency s.inFlight, e.age < t.latency := fun _ =>
    h.age_lt_of_mem_afterDue
  cases hes : s.inFlight with
  | nil => rfl
  | cons e rest =>
    rw [hes] at hyoung
    by_cases hdue : t.latency ≤ e.age
    · rw [afterDue, if_pos hdue] at hyoung ⊢
      rw [List.filter_cons_of_neg (by simpa using hdue), List.filter_eq_self.mpr (by simpa using hyoung)]
    · rw [afterDue, if_neg hdue] at hyoung ⊢
      exact (List.filter_eq_self.mpr (by simpa using hyoung)).symm

/-- The pipeline after a cycle, as it is seen. -/
theorem LoadedOk.seen_closeCycle {t : Timing} {s : State} (h : LoadedOk t s) :
    (s.closeCycle t).seen = if resetsOn t s.input then [] else
      (s.seen.filter fun v => decide (v.2 < t.latency)).map fun v => (v.1, v.2 + 1) := by
  rw [State.seen, State.closeCycle_inFlight, h.afterDue_eq_filter]
  split
  · rfl
  · simp [State.seen, ageAll, List.filter_map, Function.comp_def]

/-- Nothing in a sound pipeline is older than `LATENCY`. -/
theorem LoadedOk.seenSince_eq {t : Timing} {s : State} (h : LoadedOk t s) {k : Nat}
    (hk : t.latency ≤ k) : s.seenSince k = s.seen := by
  refine List.filter_eq_self.mpr fun v hv => ?_
  obtain ⟨e, he, rfl⟩ := List.mem_map.mp hv
  simpa using Nat.le_trans (h.2 e he) hk

/-- The block `a`, reset or not, holds of the last `k` cycles what `b` holds; both pipelines are sound, and
both are to be driven alike. -/
structure AgreesSince (t : Timing) (k : Nat) (a b : State) : Prop where
  inputs : a.inputs = b.inputs
  left : PipelineOk t a
  right : PipelineOk t b
  seen : a.seenSince k = b.seen

/-- A powered-up pipeline holds nothing of the run that begins, as the pipeline after a reset. -/
theorem AgreesSince.start (t : Timing) {a b : State} (hins : a.inputs = b.inputs)
    (ha : a.inFlight = powerUpPipe t.latency) (hb : b.inFlight = []) : AgreesSince t 0 a b where
  inputs := hins
  left := by simpa [PipelineOk, ha] using PipelineOk.powerUp t
  right := .of_empty t hb
  seen := by
    have hold : ∀ e ∈ a.inFlight, e.age ≠ 0 := fun e he =>
      Nat.one_le_iff_ne_zero.mp (age_of_mem_powerUpPipe (ha ▸ he)).1
    simpa [State.seenSince, State.seen, hb] using hold

theorem AgreesSince.input_eq {t : Timing} {k : Nat} {a b : State} (h : AgreesSince t k a b) :
    a.input = b.input := by
  rw [State.input, State.input, h.inputs]

/-- Both blocks take in the request of the cycle with answers that tell the same. -/
theorem AgreesSince.seen_takesIn {t : Timing} {k : Nat} {a b a1 b1 : State} (h : AgreesSince t k a b)
    (ha1 : TakesIn t a a1) (hb1 : TakesIn t b b1) : a1.seenSince k = b1.seen := by
  have hin := h.input_eq
  cases ha1 with
  | nothing ha =>
    cases hb1 with
    | nothing => exact h.seen
    | accepted _ hb => simp [hin, hb] at ha
  | accepted p ha hp =>
    cases hb1 with
    | nothing hb => simp [hin, hb] at ha
    | accepted p' _ hp' =>
      have hvisible : visible p = visible p' := hp.visible_eq (hin ▸ hp')
      rw [State.accept_seenSince, State.accept_seen, h.seen, hvisible]

theorem AgreesSince.closeCycle {t : Timing} {k : Nat} {a b a1 b1 : State} (h : AgreesSince t k a b)
    (ha1 : TakesIn t a a1) (hb1 : TakesIn t b b1) :
    AgreesSince t (k + 1) (a1.closeCycle t) (b1.closeCycle t) where
  inputs := by rw [State.closeCycle_inputs, State.closeCycle_inputs, ha1.inputs_eq, hb1.inputs_eq, h.inputs]
  left := h.left.closeCycle ha1
  right := h.right.closeCycle hb1
  seen := by
    rw [State.seenSince, (h.left.loadedOk ha1).seen_closeCycle, (h.right.loadedOk hb1).seen_closeCycle,
      ← h.seen_takesIn ha1 hb1, ha1.input_eq, hb1.input_eq, h.input_eq]
    split
    · rfl
    · simp [State.seenSince, List.filter_map, List.filter_filter, Function.comp_def, Bool.and_comm]

/-- Once the run is `LATENCY` cycles old, a cycle shows the same in both blocks and leaves the same. -/
theorem AgreesSince.visible_eq {t : Timing} {k : Nat} {a b a1 b1 : State} (h : AgreesSince t k a b)
    (hk : t.latency ≤ k) (ha1 : TakesIn t a a1) (hb1 : TakesIn t b b1) :
    (a1.closeCycle t).rsp.map visible = (b1.closeCycle t).rsp.map visible ∧
      (a1.closeCycle t).seen = (b1.closeCycle t).seen := by
  have hloaded := h.left.loadedOk ha1
  have hseen : a1.seen = b1.seen := by
    rw [← hloaded.seenSince_eq hk]
    exact h.seen_takesIn ha1 hb1
  refine ⟨by rw [State.visible_closeCycle_rsp, State.visible_closeCycle_rsp, hseen], ?_⟩
  rw [hloaded.seen_closeCycle, (h.right.loadedOk hb1).seen_closeCycle, hseen, ha1.input_eq, hb1.input_eq,
    h.input_eq]

/-- Two runs over the same schedule, from a pipeline that powered up and from an empty one. -/
theorem runCycles_agreesSince (t : Timing) (a b : State) (hins : a.inputs = b.inputs)
    (ha : a.inFlight = powerUpPipe t.latency) (hb : b.inFlight = []) (n : Nat) :
    ∃ an bn, runCycles t n a = .next an ∧ runCycles t n b = .next bn ∧ AgreesSince t n an bn := by
  induction n with
  | zero => exact ⟨a, b, rfl, rfl, .start t hins ha hb⟩
  | succ n ih =>
    obtain ⟨an, bn, hruna, hrunb, hagree⟩ := ih
    obtain ⟨a1, ha1, hca⟩ := clockCycle_takesIn t an
    obtain ⟨b1, hb1, hcb⟩ := clockCycle_takesIn t bn
    exact ⟨_, _, runCycles_succ_last hruna hca, runCycles_succ_last hrunb hcb, hagree.closeCycle ha1 hb1⟩

end Sys2Proof.Machine
end

section
/-! The obligations of 70_reset_and_hazards.md. -/

open Sys2Proof Sys2Proof.Machine

/-- Settles O42: a cycle takes in and closes; the pipeline stays sound, and the cycle records what it shows. -/
theorem everyStepKeepsTheInvariant : Obligations.EveryStepKeepsTheInvariant :=
  ⟨fun _ _ _ h hc => h.clockCycle hc, fun _ _ h hc => h.clockCycle hc⟩

/-- Settles O40: the reset edge takes in nothing and empties the pipeline, and a request of the next cycle is
not due in that cycle. -/
theorem resetEdgeEmptiesThePipeline : Obligations.ResetEdgeEmptiesThePipeline := by
  intro t s hL hrst
  have hr := resetsOn_of_rst hL hrst
  have hempty : (s.closeCycle t).inFlight = [] := by simp [hr]
  obtain ⟨s1, h1, hc⟩ := clockCycle_takesIn t (s.closeCycle t)
  refine ⟨_, _, clockCycle_of_not_accepts (acceptsOn_of_resetsOn hr), hempty, State.closeCycle_rsp t s,
    hc, ?_⟩
  rw [State.rspValidPort, State.closeCycle_rsp, h1.dueResponse_of_empty hL hempty, Option.isSome_none]

/-- Settles O44: the ages in flight are different numbers from 1 to `LATENCY`. -/
theorem atMostLatencyRequestsInFlight : Obligations.AtMostLatencyRequestsInFlight := fun _ _ h =>
  length_le_of_ages h.1 h.2

/-- Settles O45: what is shown has an origin `LATENCY` cycles before, and what was accepted then and not cut
off is shown. -/
theorem responseComesLatencyCyclesAfterItsRequest :
    Obligations.ResponseComesLatencyCyclesAfterItsRequest := by
  intro t s n hempty
  obtain ⟨s', hrun, hfrom⟩ := runCycles_rsp_comesFrom t hempty n
  refine ⟨s', hrun, ⟨fun hshown => ?_, ?_⟩, fun p hp => ?_⟩
  · obtain ⟨p, hp⟩ := Option.isSome_iff_exists.mp hshown
    obtain ⟨c, rfl, ha, hcut, -⟩ := hfrom p hp
    exact ⟨Nat.le_add_left _ _, by rwa [Nat.add_sub_cancel], by rwa [Nat.add_sub_cancel]⟩
  · rintro ⟨hn, ha, hcut⟩
    obtain ⟨s'', p, hrun', hrsp, -⟩ := rsp_of_request_latency_cycles_ago hempty hn ha hcut
    cases hrun.symm.trans hrun'
    rw [hrsp, Option.isSome_some]
  · obtain ⟨c, rfl, -, -, hans⟩ := hfrom p hp
    rwa [Nat.add_sub_cancel]

/-- Settles O47: with nothing in flight nothing is answered yet; each cycle adds an answer or, at a reset
edge, gives up the last ones, and what is delivered comes first. -/
theorem deliveredResponsesAnswerASublistOfTheRequests :
    Obligations.DeliveredResponsesAnswerASublistOfTheRequests := by
  intro t s n hempty
  have hstart : AnswersSublist t s.responses (acceptedRequests t s.inputs) s :=
    ⟨[], .of_empty hempty, .refl _⟩
  obtain ⟨s', hrun, -, qs, ⟨ps, hrec, hans⟩, hall⟩ :=
    runCycles_keeps (fun _ _ hs h1 => hs.closeCycle h1) n hstart
  obtain ⟨qs', hsub, hans'⟩ := exists_sublist_of_answers_append hans
  exact ⟨s', ps, qs', hrun, hrec, (hsub.trans (List.sublist_append_left _ _)).trans hall, hans'⟩

/-- Settles O50: what powered up in the pipeline is older than the run, so `LATENCY` cycles later none of it
is left, and both blocks hold answers to the same requests. -/
theorem neverResetBlockAgreesAfterLatencyCycles :
    Obligations.NeverResetBlockAgreesAfterLatencyCycles := by
  intro t ins d n hn
  obtain ⟨an, bn, hruna, hrunb, hagree⟩ := runCycles_agreesSince t { State.powerUp t with inputs := ins }
    { State.reset with inputs := ins, draws := d } rfl rfl rfl n
  obtain ⟨a1, ha1, hca⟩ := clockCycle_takesIn t an
  obtain ⟨b1, hb1, hcb⟩ := clockCycle_takesIn t bn
  exact ⟨_, _, runCycles_succ_last hruna hca, runCycles_succ_last hrunb hcb,
    hagree.visible_eq hn ha1 hb1⟩

end

section
/-! SUPPORT. The scrambler as a composition of bijections (40_scrambler.md section 1): a shift-XOR step is
determined from the top bit down, a product with an odd constant has an inverse, and the sums wrap. -/

namespace Sys2Proof.Machine

/-- Equal results of a shift-XOR step agree in each bit once the operands agree `n` places above it. -/
theorem getLsbD_eq_of_shiftXor_eq {n i : Nat} {a b : Word} (h : shiftXor n a = shiftXor n b)
    (habove : a.getLsbD (i + n) = b.getLsbD (i + n)) : a.getLsbD i = b.getLsbD i := by
  have hbit := congrArg (·.getLsbD i) h
  simp only [getLsbD_shiftXor, habove] at hbit
  exact Bool.xor_left_inj.mp hbit

/-- The bits of the operand follow from those of the result, the highest first. -/
theorem shiftXor_injective {n : Nat} (hn : 0 < n) : Function.Injective (shiftXor n) := by
  intro a b h
  have hbits (k i : Nat) (hk : 32 ≤ i + k) : a.getLsbD i = b.getLsbD i := by
    induction k generalizing i with
    | zero => rw [BitVec.getLsbD_of_ge a i hk, BitVec.getLsbD_of_ge b i hk]
    | succ k ih => exact getLsbD_eq_of_shiftXor_eq h (ih (i + n) (by omega))
  exact BitVec.eq_of_getLsbD_eq fun i _ => hbits 32 i (by omega)

theorem shiftXor_bijective {n : Nat} (hn : 0 < n) : Function.Bijective (shiftXor n) :=
  Finite.injective_iff_bijective.mp (shiftXor_injective hn)

/-- A product with a constant that has an inverse modulo 2^32 is a bijection. -/
theorem mul_const_bijective {k k' : Word} (h : k * k' = 1) : Function.Bijective fun b : Word => b * k :=
  (Units.mkOfMulEqOne k k' h).mulRight_bijective

/-- Steps 4 to 12 of the scrambler, which do not see its arguments (40_scrambler.md R82). -/
def scrambleTail (s3 : Word) : Word :=
  shiftXor 17 (shiftXor 15 (shiftXor 13 (shiftXor 11 (shiftXor 9 s3 + scramblerK2) * scramblerK3)
    + scramblerK4) * scramblerK5)

theorem scramble_eq_scrambleTail (position seed : Word) :
    scramble position seed = scrambleTail (position * scramblerK1 + seed) := rfl

theorem scrambleTail_bijective : Function.Bijective scrambleTail := by
  have hmul3 := mul_const_bijective (show scramblerK3 * 0xCF3C2263#32 = 1 by decide)
  have hmul5 := mul_const_bijective (show scramblerK5 * 0x28E0C75D#32 = 1 by decide)
  have hadd2 := AddGroup.addRight_bijective scramblerK2
  have hadd4 := AddGroup.addRight_bijective scramblerK4
  have hxor {n : Nat} (hn : 0 < n) := shiftXor_bijective hn
  exact (hxor (n := 17) (by decide)).comp <| hmul5.comp <| (hxor (n := 15) (by decide)).comp <|
    hadd4.comp <| (hxor (n := 13) (by decide)).comp <| hmul3.comp <| (hxor (n := 11) (by decide)).comp <|
    hadd2.comp (hxor (n := 9) (by decide))

theorem scramble_bijective_position (seed : Word) :
    Function.Bijective fun position : Word => scramble position seed :=
  scrambleTail_bijective.comp <| (AddGroup.addRight_bijective seed).comp <|
    mul_const_bijective (show scramblerK1 * 0xA30AE5BF#32 = 1 by decide)

theorem scramble_bijective_seed (position : Word) :
    Function.Bijective fun seed : Word => scramble position seed :=
  scrambleTail_bijective.comp (AddGroup.addLeft_bijective (position * scramblerK1))

end Sys2Proof.Machine
end

section
/-! SUPPORT. The coordinate folder's coincidences (41_coordinate_folder.md section 1): a zero last coordinate
leaves the fold of the others, and `x` and `y` can move together without changing a fold. -/

namespace Sys2Proof.Machine

@[simp] theorem fold2_zero_right (x : Word) : fold2 x 0 = fold1 x := by
  rw [fold2_eq_fold1_add, mul_zero, add_zero]

@[simp] theorem fold3_zero_right (x y : Word) : fold3 x y 0 = fold2 x y := by
  rw [fold3_eq_fold2_add, mul_zero, add_zero]

@[simp] theorem fold4_zero_right (x y z : Word) : fold4 x y z 0 = fold3 x y z := by
  rw [fold4_eq_fold3_add, mul_zero, add_zero]

@[simp] theorem noiseUint2D_zero_right (x seed : Word) : noiseUint2D x 0 seed = noiseUint1D x seed :=
  congrArg (scramble · seed) (fold2_zero_right x)

@[simp] theorem noiseUint3D_zero_right (x y seed : Word) :
    noiseUint3D x y 0 seed = noiseUint2D x y seed :=
  congrArg (scramble · seed) (fold3_zero_right x y)

@[simp] theorem noiseUint4D_zero_right (x y z seed : Word) :
    noiseUint4D x y z 0 seed = noiseUint3D x y z seed :=
  congrArg (scramble · seed) (fold4_zero_right x y z)

/-- One step less in `y` is made up for by `P1` in `x`. -/
theorem fold2_shift (x y : Word) : fold2 (x + foldP1) (y + 0xFFFFFFFF#32) = fold2 x y := by
  have hneg : (0xFFFFFFFF#32 : Word) = -1 := by decide
  rw [hneg, fold2, fold2]
  ring

theorem fold3_shift (x y z : Word) : fold3 (x + foldP1) (y + 0xFFFFFFFF#32) z = fold3 x y z := by
  rw [fold3_eq_fold2_add, fold2_shift, fold3_eq_fold2_add]

theorem fold4_shift (x y z t : Word) : fold4 (x + foldP1) (y + 0xFFFFFFFF#32) z t = fold4 x y z t := by
  rw [fold4_eq_fold3_add, fold3_shift, fold4_eq_fold3_add]

theorem add_foldP1_ne (x : Word) : x + foldP1 ≠ x := by
  rw [ne_eq, add_eq_left]
  decide

theorem fold2_not_injective : ¬ Function.Injective fun c : Word × Word => fold2 c.1 c.2 := fun h =>
  add_foldP1_ne 0 (congrArg (·.1) (h (a₁ := (_, _)) (a₂ := (_, _)) (fold2_shift 0 0)))

theorem fold3_not_injective :
    ¬ Function.Injective fun c : Word × Word × Word => fold3 c.1 c.2.1 c.2.2 := fun h =>
  add_foldP1_ne 0 (congrArg (·.1) (h (a₁ := (_, _, _)) (a₂ := (_, _, _)) (fold3_shift 0 0 0)))

theorem fold4_not_injective :
    ¬ Function.Injective fun c : Word × Word × Word × Word => fold4 c.1 c.2.1 c.2.2.1 c.2.2.2 := fun h =>
  add_foldP1_ne 0 (congrArg (·.1) (h (a₁ := (_, _, _, _)) (a₂ := (_, _, _, _)) (fold4_shift 0 0 0 0)))

end Sys2Proof.Machine
end

section
/-! The obligations on the spec's inferences in 40_scrambler.md and 41_coordinate_folder.md. -/

open Sys2Proof Sys2Proof.Machine

/-- Settles O21: on finitely many words it is enough that the step is injective. -/
theorem shiftXorIsABijection : Obligations.ShiftXorIsABijection := fun _ hn _ => shiftXor_bijective hn

/-- Settles O22: every step is a bijection of the value before it; the noise of more coordinates is not
injective because its fold is not. -/
theorem scramblerIsABijectionInEachArgument : Obligations.ScramblerIsABijectionInEachArgument :=
  ⟨scramble_bijective_position, scramble_bijective_seed, fun seed =>
    ⟨mt (Function.Injective.of_comp (f := (scramble · seed))) fold2_not_injective,
      mt (Function.Injective.of_comp (f := (scramble · seed))) fold3_not_injective,
      mt (Function.Injective.of_comp (f := (scramble · seed))) fold4_not_injective⟩⟩

/-- Settles O17: a product with zero adds nothing to the fold. -/
theorem zeroCoordinatesReduceTheFold : Obligations.ZeroCoordinatesReduceTheFold := fun x y z seed =>
  have hfold2 : fold2 x 0 = x := fold2_zero_right x
  have hfold3 : fold3 x 0 0 = x := (fold3_zero_right x 0).trans hfold2
  ⟨hfold2, rfl, fold3_zero_right x y, fold4_zero_right x y z,
    (fold4_zero_right x 0 0).trans hfold3, hfold3, hfold2, noiseUint2D_zero_right x seed⟩

/-- Settles O18: every meaning completes with its noise, and the noise of a zero last coordinate is the one
of one coordinate less. -/
theorem zeroCoordinatesReduceTheOperation : Obligations.ZeroCoordinatesReduceTheOperation := by
  intro x y z seed s
  refine ⟨rfl, ?_⟩
  simp only [exec_completes, noiseUint2D_zero_right, noiseUint3D_zero_right, noiseUint4D_zero_right,
    and_self]

/-- Settles O24: `x` and `y` move together; the pairs at the extreme values are evaluated. -/
theorem foldsCollide : Obligations.FoldsCollide :=
  ⟨fold2_shift, fun _ _ _ _ seed h => congrArg (scramble · seed) h,
    fold2_not_injective, fold3_not_injective, fold4_not_injective,
    by decide, by decide, by decide, by decide, by decide, by decide⟩

end

section
/-! SUPPORT. The values the mappings take (42_range_scaler.md section 3): a result is zero for zero alone and
otherwise normal, and the raw values of one result lie side by side. -/

namespace Sys2Proof.Machine

theorem flRat_eq_zero_iff {p : Nat} (hp : 0 < p) {v : ℚ} : flRat p v = 0 ↔ v = 0 := by
  refine ⟨fun h => ?_, fun h => h ▸ flRat_zero p⟩
  rcases lt_trichotomy v 0 with hv | hv | hv
  · have hpos := flRat_pos hp (neg_pos.mpr hv)
    rw [flRat_neg, h, neg_zero] at hpos
    exact absurd hpos (lt_irrefl 0)
  · exact hv
  · exact absurd h (flRat_pos hp hv).ne'

/-- A pattern that encodes a number is the zero word or has a normal exponent field. -/
theorem exponent_of_valueOf32 {b : Word} {v : ℚ} (h : valueOf32 b = some v) (hb : b ≠ 0) :
    0 < (b.extractLsb 30 23).toNat ∧ (b.extractLsb 30 23).toNat < 255 := by
  by_contra hE
  rw [valueOf32, if_neg hb, if_neg hE] at h
  cases h

theorem unsigned_eq_zero_iff (raw : Word) : raw.unsigned = 0 ↔ raw = 0 :=
  BitVec.toNat_inj (y := 0#32)

theorem zmapValue_eq_zero_iff (raw : Word) : zmapValue raw = 0 ↔ raw = 0 := by
  have hscale : scaleZRat ≠ 0 := by rw [scaleZRat_eq]; norm_num
  rw [zmapValue, flRat_eq_zero_iff (by decide), zmapDouble, flRat_eq_zero_iff (by decide),
    mul_eq_zero_iff_right hscale, Nat.cast_eq_zero, unsigned_eq_zero_iff]

theorem nmapValue_eq_zero_iff (raw : Word) : nmapValue raw = 0 ↔ raw = 0 := by
  have hscale : scaleNRat ≠ 0 := by rw [scaleNRat_eq]; norm_num
  rw [nmapValue, flRat_eq_zero_iff (by decide), nmapDouble, flRat_eq_zero_iff (by decide),
    mul_eq_zero_iff_right hscale, Int.cast_eq_zero, signed_eq_zero_iff]

/-- The encoding loses nothing: two raw values have one `zmap` result exactly when they have one number. -/
theorem zmap_eq_iff (a b : Word) : zmap a = zmap b ↔ zmapValue a = zmapValue b := by
  constructor
  · intro h
    have hvalue := congrArg valueOf32 h
    rwa [valueOf32_zmap, valueOf32_zmap, Option.some_inj] at hvalue
  · intro h
    rw [zmap_eq_zmapRat, zmap_eq_zmapRat]
    exact congrArg enc32Rat h

theorem nmap_eq_iff (a b : Word) : nmap a = nmap b ↔ nmapValue a = nmapValue b := by
  constructor
  · intro h
    have hvalue := congrArg valueOf32 h
    rwa [valueOf32_nmap, valueOf32_nmap, Option.some_inj] at hvalue
  · intro h
    rw [nmap_eq_nmapRat, nmap_eq_nmapRat]
    exact congrArg enc32Rat h

theorem zmap_zero : zmap 0 = 0 := by decide

theorem nmap_zero : nmap 0 = 0 := by decide

theorem zmap_eq_zero_iff (raw : Word) : zmap raw = 0 ↔ raw = 0 := by
  have h := zmap_eq_iff raw 0
  rwa [zmap_zero, (zmapValue_eq_zero_iff 0).mpr rfl, zmapValue_eq_zero_iff] at h

theorem nmap_eq_zero_iff (raw : Word) : nmap raw = 0 ↔ raw = 0 := by
  have h := nmap_eq_iff raw 0
  rwa [nmap_zero, (nmapValue_eq_zero_iff 0).mpr rfl, nmapValue_eq_zero_iff] at h

theorem zmap_sign (raw : Word) : (zmap raw).getLsbD 31 = false := by
  by_cases h : raw = 0
  · rw [h, zmap_zero]
    rfl
  · have hproduct : raw.unsigned * scaleZ ≠ 0 :=
      Nat.mul_ne_zero (mt (unsigned_eq_zero_iff raw).mp h) (by decide)
    exact enc32Int_sign false 64 (rneInt_ne_zero (by decide) (rneInt_ne_zero (by decide) hproduct))

theorem getLsbD_31_eq_signed_neg (raw : Word) : raw.getLsbD 31 = decide (raw.signed < 0) :=
  (BitVec.msb_eq_getLsbD_last raw).symm.trans BitVec.msb_eq_toInt

/-- Between two raw values of one `zmap` result there is no other result. -/
theorem zmap_eq_of_between {a b c : Word} (hab : a.unsigned ≤ b.unsigned) (hbc : b.unsigned ≤ c.unsigned)
    (h : zmap a = zmap c) : zmap a = zmap b :=
  (zmap_eq_iff a b).mpr <| (zmapValue_mono hab).antisymm <|
    (zmapValue_mono hbc).trans_eq ((zmap_eq_iff a c).mp h).symm

theorem nmap_eq_of_between {a b c : Word} (hab : a.signed ≤ b.signed) (hbc : b.signed ≤ c.signed)
    (h : nmap a = nmap c) : nmap a = nmap b :=
  (nmap_eq_iff a b).mpr <| (nmapValue_mono hab).antisymm <|
    (nmapValue_mono hbc).trans_eq ((nmap_eq_iff a c).mp h).symm

theorem zmap_eq_one_iff (raw : Word) : zmap raw = 0x3F800000#32 ↔ 0xFFFFFF7F ≤ raw.unsigned := by
  have hfirst : zmap 0xFFFFFF7F#32 = 0x3F800000#32 := by decide
  have hlast : zmap 0xFFFFFFFF#32 = 0x3F800000#32 := by decide
  have hbelow : zmap 0xFFFFFF7E#32 ≠ 0x3F800000#32 := by decide
  constructor
  · intro h
    by_contra hlt
    have hle : raw.unsigned ≤ Word.unsigned 0xFFFFFF7E#32 := Nat.le_of_lt_succ (Nat.not_le.mp hlt)
    have hbetween := zmap_eq_of_between hle (by decide) (h.trans hfirst.symm)
    exact hbelow (hbetween.symm.trans h)
  · intro hle
    have hmax : raw.unsigned ≤ Word.unsigned 0xFFFFFFFF#32 := Nat.le_of_lt_succ raw.isLt
    have hbetween := zmap_eq_of_between (a := 0xFFFFFF7F#32) hle hmax (hfirst.trans hlast.symm)
    exact hbetween.symm.trans hfirst

theorem nmap_eq_one_iff (raw : Word) : nmap raw = 0x3F800000#32 ↔ 2147483583 ≤ raw.signed := by
  have hfirst : nmap 0x7FFFFFBF#32 = 0x3F800000#32 := by decide
  have hlast : nmap 0x7FFFFFFF#32 = 0x3F800000#32 := by decide
  have hbelow : nmap 0x7FFFFFBE#32 ≠ 0x3F800000#32 := by decide
  constructor
  · intro h
    by_contra hlt
    have hle : raw.signed ≤ Word.signed 0x7FFFFFBE#32 := Int.le_of_lt_add_one (Int.not_le.mp hlt)
    have hbetween := nmap_eq_of_between hle (by decide) (h.trans hfirst.symm)
    exact hbelow (hbetween.symm.trans h)
  · intro hle
    have hbetween := nmap_eq_of_between (a := 0x7FFFFFBF#32) (c := 0x7FFFFFFF#32) hle
      (signed_bounds raw).2 (hfirst.trans hlast.symm)
    exact hbetween.symm.trans hfirst

theorem nmap_eq_neg_one_iff (raw : Word) : nmap raw = 0xBF800000#32 ↔ raw.signed ≤ -2147483583 := by
  have hfirst : nmap 0x80000000#32 = 0xBF800000#32 := by decide
  have hlast : nmap 0x80000041#32 = 0xBF800000#32 := by decide
  have habove : nmap 0x80000042#32 ≠ 0xBF800000#32 := by decide
  constructor
  · intro h
    by_contra hlt
    have hle : Word.signed 0x80000042#32 ≤ raw.signed := Int.add_one_le_of_lt (Int.not_le.mp hlt)
    have hbetween := nmap_eq_of_between (a := 0x80000041#32) (by decide) hle (hlast.trans h.symm)
    exact habove (hbetween.symm.trans hlast)
  · intro hle
    have hbetween := nmap_eq_of_between (a := 0x80000000#32) (c := 0x80000041#32)
      (signed_bounds raw).1 hle (hfirst.trans hlast.symm)
    exact hbetween.symm.trans hfirst

theorem signed_eq_ite (raw : Word) :
    raw.signed = if raw.toNat < 2 ^ 31 then (raw.toNat : ℤ) else raw.toNat - 2 ^ 32 := by
  rw [Word.signed, BitVec.toInt_eq_toNat_cond]
  split <;> split <;> omega

end Sys2Proof.Machine
end

section
/-! SUPPORT. One rounding against two (42_range_scaler.md R143): they can differ only where the first one comes
within half its unit of a midpoint of the second, and a product with a scale factor comes that near to one
only for raw values next to the end of the range. -/

namespace Sys2Proof.Machine

theorem rneInt_mono {p V W : Nat} (hp : 0 < p) (h : V ≤ W) : rneInt V p ≤ rneInt W p := by
  have hmono := flRat_mono hp (Nat.cast_le (α := ℚ).mpr h)
  have hV := flRat_natCast_mul_zpow p V 0
  have hW := flRat_natCast_mul_zpow p W 0
  rw [zpow_zero, mul_one, mul_one] at hV hW
  rw [hV, hW] at hmono
  exact_mod_cast hmono

/-- A number with at most `p` significant bits is kept. -/
theorem rneInt_of_significant_bits {p m : Nat} (hp : 0 < p) (hm : m ≤ 2 ^ p) (k : Nat) :
    rneInt (m * 2 ^ k) p = m * 2 ^ k := by
  have hdist := rneInt_nearest (W := m * 2 ^ k) hp hm k
  rw [Nat.dist_self, Nat.le_zero] at hdist
  exact (Nat.eq_of_dist_eq_zero hdist).symm

/-- Rounding moves a number by at most half a unit in the last place. -/
theorem dist_rneInt_le {W p e : Nat} (hlo : 2 ^ (p + e) ≤ W) (hhi : W < 2 ^ (p + e + 1)) :
    rneInt W p ≤ W + 2 ^ e ∧ W ≤ rneInt W p + 2 ^ e := by
  have hW := Nat.div_add_mod' W (2 ^ (e + 1))
  have hlt := Nat.mod_lt W (Nat.two_pow_pos (e + 1))
  rw [rneInt_of_binade hlo hhi]
  rcases roundedQuotient_cases W e with ⟨h, hr⟩ | ⟨h, hr⟩
  · rw [h]; omega
  · rw [h, Nat.succ_mul]; omega

/-- Below the midpoint of two neighbouring numbers of `p + 1` significant bits the lower one is taken. -/
theorem rneInt_of_lt_midpoint {p q d x : Nat} (hq : 2 ^ p ≤ q) (hq' : q < 2 ^ (p + 1))
    (hlo : q * 2 ^ (d + 1) ≤ x) (hhi : x < q * 2 ^ (d + 1) + 2 ^ d) :
    rneInt x (p + 1) = q * 2 ^ (d + 1) := by
  obtain ⟨m, k, hm, heq⟩ := rneInt_representable x (p + 1)
  have hgap := le_or_le_of_significant_bits hq hm k (d + 1)
  have hnear := rneInt_nearest (W := x) p.succ_pos hq'.le (d + 1)
  rw [heq, Nat.dist, Nat.dist] at hnear
  rw [Nat.succ_mul] at hgap
  rw [heq]
  omega

/-- Above the midpoint the upper one is taken. -/
theorem rneInt_of_midpoint_lt {p q d x : Nat} (hq : 2 ^ p ≤ q) (hq' : q < 2 ^ (p + 1))
    (hlo : q * 2 ^ (d + 1) + 2 ^ d < x) (hhi : x ≤ (q + 1) * 2 ^ (d + 1)) :
    rneInt x (p + 1) = (q + 1) * 2 ^ (d + 1) := by
  obtain ⟨m, k, hm, heq⟩ := rneInt_representable x (p + 1)
  have hgap := le_or_le_of_significant_bits hq hm k (d + 1)
  have hnear := rneInt_nearest (W := x) p.succ_pos (Nat.succ_le_of_lt hq') (d + 1)
  rw [heq, Nat.dist, Nat.dist, Nat.succ_mul] at hnear
  rw [Nat.succ_mul] at hgap hhi ⊢
  rw [heq]
  omega

/-- A number with `d + 1` bits more than `p + 1` lies between two neighbouring numbers of `p + 1` bits. -/
theorem exists_quotient_of_binade {W p d : Nat} (hlo : 2 ^ (p + 1 + d) ≤ W) (hhi : W < 2 ^ (p + 1 + d + 1)) :
    ∃ q, (2 ^ p ≤ q ∧ q < 2 ^ (p + 1)) ∧ q * 2 ^ (d + 1) ≤ W ∧ W < (q + 1) * 2 ^ (d + 1) := by
  have hpow : p + 1 + d = p + (d + 1) := by omega
  refine ⟨W / 2 ^ (d + 1), ⟨?_, ?_⟩, Nat.div_mul_le_self _ _, Nat.lt_mul_of_div_lt (Nat.lt_succ_self _)
    (Nat.two_pow_pos _)⟩
  · rwa [Nat.le_div_iff_mul_le (Nat.two_pow_pos _), ← pow_add, ← hpow]
  · rwa [Nat.div_lt_iff_lt_mul (Nat.two_pow_pos _), ← pow_add, Nat.add_right_comm, ← hpow]

/-- Rounding to `j` bits more first changes nothing, unless the number lies within half a unit of that first
rounding from a midpoint of the second one. -/
theorem rneInt_rneInt_or_near {W p j e : Nat} (hlo : 2 ^ (p + 1 + j + e) ≤ W)
    (hhi : W < 2 ^ (p + 1 + j + e + 1)) :
    rneInt (rneInt W (p + 1 + j)) (p + 1) = rneInt W (p + 1) ∨
      ∃ q, (2 * q + 1) * 2 ^ (j + e) ≤ W + 2 ^ e ∧ W ≤ (2 * q + 1) * 2 ^ (j + e) + 2 ^ e := by
  obtain ⟨hup, hdown⟩ := dist_rneInt_le hlo hhi
  rw [Nat.add_assoc _ j e] at hlo hhi
  obtain ⟨q, ⟨hq, hq'⟩, hqle, hqlt⟩ := exists_quotient_of_binade hlo hhi
  have hkept {m : Nat} (hm : m ≤ 2 ^ (p + 1)) :
      rneInt (m * 2 ^ (j + e + 1)) (p + 1 + j) = m * 2 ^ (j + e + 1) :=
    rneInt_of_significant_bits (by omega) (hm.trans (Nat.pow_le_pow_right two_pos (Nat.le_add_right _ _))) _
  have hge := (hkept hq'.le).symm.trans_le (rneInt_mono (by omega) hqle)
  have hle := (rneInt_mono (by omega) hqlt.le).trans_eq (hkept hq')
  rcases Nat.lt_or_ge (W + 2 ^ e) (q * 2 ^ (j + e + 1) + 2 ^ (j + e)) with hbelow | hnear
  · left
    rw [rneInt_of_lt_midpoint (d := j + e) hq hq' hge (by omega),
      rneInt_of_lt_midpoint (d := j + e) hq hq' hqle (by omega)]
  rcases Nat.lt_or_ge (q * 2 ^ (j + e + 1) + 2 ^ (j + e) + 2 ^ e) W with habove | hnear'
  · left
    rw [rneInt_of_midpoint_lt (d := j + e) hq hq' (by omega) hle,
      rneInt_of_midpoint_lt (d := j + e) hq hq' (by omega) hqlt.le]
  · right
    have hmid : (2 * q + 1) * 2 ^ (j + e) = q * 2 ^ (j + e + 1) + 2 ^ (j + e) := by ring
    exact ⟨q, hmid ▸ hnear, hmid ▸ hnear'⟩

/-- A product with `2 ^ N + 1`, long enough for the first rounding to 53 bits to matter, comes that near to a
multiple of half a unit of the second one only next to the end of the range. -/
theorem two_pow_le_of_near {N n e c : Nat} (hN : N ≤ 32)
    (hlo : 2 ^ (53 + e) ≤ n * (2 ^ N + 1)) (hhi : n * (2 ^ N + 1) < 2 ^ (53 + e + 1))
    (hnear : c * 2 ^ (29 + e) ≤ n * (2 ^ N + 1) + 2 ^ e)
    (hnear' : n * (2 ^ N + 1) ≤ c * 2 ^ (29 + e) + 2 ^ e) : 2 ^ N ≤ n + 2 ^ e := by
  have hlong : 2 ^ e < n := by
    by_contra hle
    have hexp : 2 ^ e * (2 ^ N + 1) < 2 ^ (53 + e) := by
      rw [Nat.add_comm 53 e, pow_add]
      exact Nat.mul_lt_mul_of_pos_left (by have := Nat.pow_le_pow_right two_pos hN; omega) (Nat.two_pow_pos e)
    exact absurd (Nat.mul_le_mul_right (2 ^ N + 1) (not_lt.mp hle)) (by omega)
  rw [Nat.mul_succ] at hlo hhi hnear hnear'
  -- `n * 2 ^ N` and the multiple are multiples of one power of two, and `n` is most of what lies between them.
  have hgap {k : Nat} (hkN : k ≤ N) (hke : k ≤ 29 + e) : 2 ^ k ≤ n + 2 ^ e := by
    have hdvd : 2 ^ k ∣ c * 2 ^ (29 + e) - n * 2 ^ N :=
      Nat.dvd_sub ((pow_dvd_pow 2 hke).mul_left c) ((pow_dvd_pow 2 hkN).mul_left n)
    exact (Nat.le_of_dvd (by omega) hdvd).trans (by omega)
  rcases Nat.le_total N (29 + e) with hNe | hNe
  · exact hgap le_rfl hNe
  · have hshort : n * 2 ^ (29 + e) < 2 ^ 25 * 2 ^ (29 + e) := by
      have := Nat.mul_le_mul_left n (Nat.pow_le_pow_right two_pos hNe)
      rw [← pow_add, show 25 + (29 + e) = 53 + e + 1 by omega]
      omega
    have hn25 := Nat.lt_of_mul_lt_mul_right hshort
    have hunit := Nat.two_pow_pos e
    have hend := hgap hNe le_rfl
    rw [pow_add] at hend
    omega

/-- The two roundings of a product with `2 ^ N + 1` are one, or the product lies next to a midpoint and its
factor next to the end of the range. -/
theorem product_rounded_once_or_near {N : Nat} (hN : N ≤ 32) (n : Nat) :
    rneInt (rneInt (n * (2 ^ N + 1)) 53) 24 = rneInt (n * (2 ^ N + 1)) 24 ∨
      ∃ e q, (2 ^ (53 + e) ≤ n * (2 ^ N + 1) ∧ n * (2 ^ N + 1) < 2 ^ (53 + e + 1)) ∧
        ((2 * q + 1) * 2 ^ (29 + e) ≤ n * (2 ^ N + 1) + 2 ^ e ∧
          n * (2 ^ N + 1) ≤ (2 * q + 1) * 2 ^ (29 + e) + 2 ^ e) ∧ 2 ^ N ≤ n + 2 ^ e := by
  rcases Nat.lt_or_ge (n * (2 ^ N + 1)) (2 ^ 53) with hlt | hge
  · rw [rneInt_of_lt hlt]
    exact .inl rfl
  obtain ⟨e, hlo, hhi⟩ := exists_binade hge
  refine (rneInt_rneInt_or_near (p := 23) (j := 29) hlo hhi).imp_right ?_
  rintro ⟨q, hq, hq'⟩
  exact ⟨e, q, ⟨hlo, hhi⟩, ⟨hq, hq'⟩, two_pow_le_of_near hN hlo hhi hq hq'⟩

/-- Four magnitudes bring the product of `zmap` that near to a midpoint; at two of them the lower neighbour is
even, and both ways take it. -/
theorem zmap_product_rounded_once_cases {n : Nat} (hn : n < 2 ^ 32) :
    rneInt (rneInt (n * scaleZ) 53) 24 = rneInt (n * scaleZ) 24 ∨ n = 0xFFFFFD7F ∨ n = 0xFFFFFF7F := by
  rw [scaleZ]
  rcases product_rounded_once_or_near (N := 32) le_rfl n with h | ⟨e, q, ⟨hlo, hhi⟩, ⟨hq, hq'⟩, hend⟩
  · exact .inl h
  have he : 53 + e < 64 := (Nat.pow_lt_pow_iff_right one_lt_two).mp (hlo.trans_lt (by omega))
  have hpow : 2 ^ e ≤ 2 ^ 10 := Nat.pow_le_pow_right two_pos (by omega)
  have he' : 63 < 53 + e + 1 := (Nat.pow_lt_pow_iff_right one_lt_two).mp (hhi.trans_le' (by omega))
  obtain rfl : e = 10 := by omega
  have hmid : n + 1 = (2 * q + 1) * 2 ^ 7 := by omega
  have hcases : n = 0xFFFFFC7F ∨ n = 0xFFFFFD7F ∨ n = 0xFFFFFE7F ∨ n = 0xFFFFFF7F := by omega
  rcases hcases with rfl | h | rfl | h
  · exact .inl (by decide)
  · exact .inr (.inl h)
  · exact .inl (by decide)
  · exact .inr (.inr h)

/-- Two magnitudes bring the product of `nmap` that near to a midpoint; at one of them the lower neighbour is
even, and both ways take it. -/
theorem nmap_product_rounded_once_cases {n : Nat} (hn : n < 2 ^ 31) :
    rneInt (rneInt (n * scaleN) 53) 24 = rneInt (n * scaleN) 24 ∨ n = 0x7FFFFFBF := by
  rw [scaleN]
  rcases product_rounded_once_or_near (N := 31) (by decide) n with h | ⟨e, q, ⟨hlo, hhi⟩, ⟨hq, hq'⟩, hend⟩
  · exact .inl h
  have he : 53 + e < 62 := (Nat.pow_lt_pow_iff_right one_lt_two).mp (hlo.trans_lt (by omega))
  have hpow : 2 ^ e ≤ 2 ^ 8 := Nat.pow_le_pow_right two_pos (by omega)
  have he' : 61 < 53 + e + 1 := (Nat.pow_lt_pow_iff_right one_lt_two).mp (hhi.trans_le' (by omega))
  obtain rfl : e = 8 := by omega
  have hmid : n + 1 = (2 * q + 1) * 2 ^ 6 := by omega
  have hcases : n = 0x7FFFFF3F ∨ n = 0x7FFFFFBF := by omega
  rcases hcases with rfl | h
  · exact .inl (by decide)
  · exact .inr h

/-- Rounding the product of `zmap` once gives another result for exactly two raw values. -/
theorem single_rounding_ne_zmap_iff (raw : Word) :
    enc32Int false (rneInt (raw.unsigned * scaleZ) 24) 64 ≠ zmap raw ↔
      raw = 0xFFFFFD7F#32 ∨ raw = 0xFFFFFF7F#32 := by
  constructor
  · intro hne
    rcases zmap_product_rounded_once_cases raw.isLt with h | h | h
    · exact absurd (congrArg (enc32Int false · 64) h.symm) hne
    · exact .inl (BitVec.eq_of_toNat_eq h)
    · exact .inr (BitVec.eq_of_toNat_eq h)
  · rintro (rfl | rfl) <;> decide

/-- Rounding the product of `nmap` once gives another result for exactly two raw values. -/
theorem single_rounding_ne_nmap_iff (raw : Word) :
    enc32Int (decide (raw.signed < 0)) (rneInt (raw.signed.natAbs * scaleN) 24) 62 ≠ nmap raw ↔
      raw = 0x7FFFFFBF#32 ∨ raw = 0x80000041#32 := by
  constructor
  · intro hne
    by_cases hmin : raw = 0x80000000#32
    · subst hmin
      exact absurd (by decide) hne
    have hmag : raw.signed.natAbs < 2 ^ 31 := by
      have hmin' : raw.signed ≠ -2147483648 := mt (BitVec.toInt_inj (y := 0x80000000#32)).mp hmin
      have := signed_bounds raw
      omega
    rcases nmap_product_rounded_once_cases hmag with h | h
    · exact absurd (congrArg (enc32Int (decide (raw.signed < 0)) · 62) h.symm) hne
    rcases Int.natAbs_eq_iff.mp h with h | h
    · exact .inl (BitVec.toInt_inj.mp h)
    · exact .inr (BitVec.toInt_inj.mp h)
  · rintro (rfl | rfl) <;> decide

end Sys2Proof.Machine
end

section
/-! The obligations on the spec's inferences in 42_range_scaler.md. -/

open Sys2Proof Sys2Proof.Machine

/-- Settles O32: the raw values of one result lie side by side, so the first and the last of them decide. -/
theorem endValuesHaveExactlyTheseInputs : Obligations.EndValuesHaveExactlyTheseInputs := by
  intro raw
  have hsigned := signed_eq_ite raw
  have hlt := raw.isLt
  refine ⟨zmap_eq_one_iff raw, (nmap_eq_one_iff raw).trans ?_, (nmap_eq_neg_one_iff raw).trans ?_,
    zmap_eq_zero_iff raw, nmap_eq_zero_iff raw⟩ <;>
  · split at hsigned <;> omega

/-- Settles O33: every result encodes a number, so it has a normal exponent or is the zero word. -/
theorem noSpecialFloatArises : Obligations.NoSpecialFloatArises := by
  refine fun raw => ⟨fun h => ?_, zmap_sign raw,
    (nmap_sign raw).trans (getLsbD_31_eq_signed_neg raw).symm, zmap_zero, nmap_zero⟩
  obtain ⟨hz, hz'⟩ := exponent_of_valueOf32 (valueOf32_zmap raw) (mt (zmap_eq_zero_iff raw).mp h)
  obtain ⟨hn, hn'⟩ := exponent_of_valueOf32 (valueOf32_nmap raw) (mt (nmap_eq_zero_iff raw).mp h)
  exact ⟨hz, hz', hn, hn'⟩

/-- Settles O34: two roundings differ from one only next to a midpoint, where the few candidates are
evaluated. -/
theorem singleRoundingDiffersAtExactlyFourInputs : Obligations.SingleRoundingDiffersAtExactlyFourInputs :=
  ⟨fun raw => ⟨single_rounding_ne_zmap_iff raw, single_rounding_ne_nmap_iff raw⟩, by decide, by decide,
    by decide, by decide⟩

end
